-- ==== Sys2Proof/Word.lean ====
section
/-! DEFINITION. The word types of the block: the command word and the phases are 16 bits, configuration words,
amplitudes, deltas and stage counts 32 bits, output samples 8 bits (00_scope.md R4). -/

namespace Sys2Proof

/-- Eight bits: an output sample (s8), or one byte of a serialised 16-bit word (R65). -/
abbrev Byte := BitVec 8

/-- Sixteen bits: a command word, a phase, a phase step, a gain, a time (R4, R80). -/
abbrev Word := BitVec 16

/-- Thirty-two bits: a configuration word, a stage count (u32), an amplitude or a delta (s32). -/
abbrev Long := BitVec 32

end Sys2Proof
end

