-- ==== Sys2Proof/Syntax.lean ====
section
/-! DEFINITION. The six commands (30_encoding.md R80 to R82), the waveforms (R91), the instrument record
(10_state.md R23), the tune the host loads (R20 (1), 20_memory.md R64) and the pseudo-instructions (R87, R88). -/

namespace Sys2Proof

/-- The command set, one constructor for each row of spec/opcode_table.json. The operand types are the operand
fields of R81, so that every term is an instruction the encoding has: `Instr.WellFormed` holds of all of them. -/
inductive Instr where
  /-- `NOTE pitch`, op 0x0, an unsigned byte (R162). -/
  | note (pitch : BitVec 8)
  /-- `SETI index`, op 0x1, an unsigned 12-bit instrument index (R163). -/
  | seti (index : BitVec 12)
  /-- `BEAT count`, op 0x2, an unsigned 12-bit number of beats (R164). -/
  | beat (count : BitVec 12)
  /-- `JUMP target`, op 0x3, an absolute 12-bit command index (R165). -/
  | jump (target : BitVec 12)
  /-- `REPT count`, op 0x4, an unsigned 12-bit repeat count (R166). -/
  | rept (count : BitVec 12)
  /-- `PAN offset`, op 0x5, a byte read as two's complement (R167). -/
  | pan (offset : BitVec 8)
  deriving DecidableEq, Repr

/-- The five waveforms in the order of their codes (R91). The codes 5 to 7 are no waveform. -/
inductive Waveform where
  | sine | square | triangle | saw | noise
  deriving DecidableEq, Repr

/-- The instrument record: the eleven fields of R23. The waveform fields hold the 3-bit codes as loaded, the
reserved codes 5 to 7 among them: `SETI` rejects those (R207). -/
structure Instrument where
  carwave : BitVec 3
  peak : Word
  att : Word
  dec : Word
  sus : Word
  rel : Word
  modwave : BitVec 3
  modamp : Word
  num : BitVec 8
  den : BitVec 8
  modph0 : Word
  deriving DecidableEq, Repr

/-- What a host loads (R20 (1)): the two configuration words, the instrument table, one command store for each
channel. NINSTR, NCHAN and CODE_LEN[c] are the lengths of its lists. -/
structure Tune where
  sampleRate : Long
  beatLen : Long
  instruments : List Instrument
  code : List (List Word)
  deriving DecidableEq, Repr

/-- The twelve semitone names of an octave (R87). -/
inductive NoteName where
  | c | cSharp | d | dSharp | e | f | fSharp | g | gSharp | a | aSharp | b
  deriving DecidableEq, Repr

/-- The semitone of a note name: 0 for C up to 11 for B (R87, R88). -/
def NoteName.semitone : NoteName → Nat
  | .c => 0 | .cSharp => 1 | .d => 2 | .dSharp => 3 | .e => 4 | .f => 5
  | .fSharp => 6 | .g => 7 | .gSharp => 8 | .a => 9 | .aSharp => 10 | .b => 11

/-- The pitch number of a named note: `12 * octave + semitone`, so C4 is 48 and B8 is 107 (R87, R88). -/
def NoteName.pitch (n : NoteName) (octave : Fin 9) : BitVec 8 :=
  BitVec.ofNat 8 (12 * octave.val + n.semitone)

/-- The pseudo-instruction `PAUSE`: `NOTE 255` (R87). -/
def Instr.pause : Instr := .note 255#8

/-- The pseudo-instruction `CENTER`: `PAN 0` (R87). -/
def Instr.center : Instr := .pan 0#8

/-- The pseudo-instruction `NOTE <name><octave>` (R87). -/
def Instr.noteNamed (n : NoteName) (octave : Fin 9) : Instr := .note (n.pitch octave)

end Sys2Proof
end

