-- ==== Sys2Proof/Decode.lean ====
section
/-! DEFINITION. The command decoder and encoder (30_encoding.md R80 to R85) and the byte order of a serialised
command word (20_memory.md R65). -/

namespace Sys2Proof

/-- Why a byte sequence is no command: fewer than two bytes, or a word that matches no row of R82. -/
inductive DecodeError where
  | truncated
  | illegalCommand (w : Word)
  deriving DecidableEq, Repr

/-- `w` matches a row of the opcode map: `(w AND mask) = match` (R82). -/
def matchesRow (mask pattern w : Word) : Bool := w &&& mask == pattern

/-- The command a word is, or none where the word is illegal (R82, R83). The rows in the order of R82; the operands
as R81 assembles them. -/
def decodeWord (w : Word) : Option Instr :=
  if matchesRow 0xFF00#16 0x0000#16 w then some (.note (w.extractLsb' 0 8))
  else if matchesRow 0xF000#16 0x1000#16 w then some (.seti (w.extractLsb' 0 12))
  else if matchesRow 0xF000#16 0x2000#16 w then some (.beat (w.extractLsb' 0 12))
  else if matchesRow 0xF000#16 0x3000#16 w then some (.jump (w.extractLsb' 0 12))
  else if matchesRow 0xF000#16 0x4000#16 w then some (.rept (w.extractLsb' 0 12))
  else if matchesRow 0xFF00#16 0x5000#16 w then some (.pan (w.extractLsb' 0 8))
  else none

/-- The word made of two bytes, the low one first (R65). -/
def wordOfBytes (lo hi : Byte) : Word := hi ++ lo

/-- The low byte of a word: it comes first (R65). -/
def lowByte (w : Word) : Byte := w.extractLsb' 0 8

/-- The high byte of a word: it comes second (R65). -/
def highByte (w : Word) : Byte := w.extractLsb' 8 8

/-- The decoder over bytes: the first command and the bytes after it. Total; every rejection has a name. -/
def decode : List Byte → Except DecodeError (Instr × List Byte)
  | lo :: hi :: rest =>
    match decodeWord (wordOfBytes lo hi) with
    | some i => .ok (i, rest)
    | none => .error (.illegalCommand (wordOfBytes lo hi))
  | _ => .error .truncated

/-- The word of a command: `op` in the high four bits, the operand below it, the unused bits of an 8-bit operand
zero (R80, R81, R82). -/
def encode : Instr → Word
  | .note pitch => 0x00#8 ++ pitch
  | .seti index => 0x1#4 ++ index
  | .beat count => 0x2#4 ++ count
  | .jump target => 0x3#4 ++ target
  | .rept count => 0x4#4 ++ count
  | .pan offset => 0x50#8 ++ offset

/-- The two bytes of a command's word, low byte first (R65). -/
def encodeBytes (i : Instr) : List Byte := [lowByte (encode i), highByte (encode i)]

/-- `n` bytes of the number `w`, least significant first. -/
def bytesOfNat : Nat → Nat → List Byte
  | 0, _ => []
  | n + 1, w => BitVec.ofNat 8 w :: bytesOfNat n (w / 256)

/-- What the decoder reads from an instruction whose bits are `w`, numbered as spec/opcode_table.json numbers them.
Every row of the table has 16 bits; bits above `nbits` are zero. -/
def decodeTableWord (nbits w : Nat) : Option Instr :=
  match decode (bytesOfNat (max 2 (nbits / 8)) (w % 2 ^ nbits)) with
  | .ok (i, _) => some i
  | .error _ => none

/-- The mnemonic of a command as R82 spells it. -/
def Instr.mnemonic : Instr → String
  | .note _ => "NOTE"
  | .seti _ => "SETI"
  | .beat _ => "BEAT"
  | .jump _ => "JUMP"
  | .rept _ => "REPT"
  | .pan _ => "PAN"

end Sys2Proof
end

