-- ==== Sys2Proof/Config.lean ====
section
/-! DEFINITION. What an implementation fixes and what the spec leaves open: the device's own oscillators
(40_oscillators.md R103, R109), the free values, the default frequency table (41_instrument.md R122) and the
placement of the tune store in the model's memory (TUNE_MAP, 20_memory.md R64). -/

namespace Sys2Proof

/-- FREE: the sine generator of a device that does not use the reference definition. A model may assume of it
only that it is a total function of the phase (R100, R103). Assumption 10. -/
opaque Config.deviceSine : Word → Word

/-- FREE: the noise generator of a device that does not use the reference definition (R100, R109). Assumption 10. -/
opaque Config.deviceNoise : Word → Word

/-- FREE: the values a register takes where the spec says its rule has no value, one for each number of the
counter `State.fresh` (93_implementation_defined.md U11). Assumptions 12 and 13. -/
opaque Config.freeLong : Nat → Long

/-- FREE: what an amplitude register holds after a sum that does not fit s32, as a function of the exact sum
(10_state.md R34 gives no value: no run of a loaded tune reaches it). Assumption 14. -/
opaque Config.freeAmplitude : Int → Long

/-- The default of the parameter `FREQ_TABLE`: C8 to B8, equal temperament, A4 = 440 Hz (R122). Assumption 11. -/
def Config.defaultFreqTable : Vector Long 12 :=
  #v[274334289#32, 290647054#32, 307929828#32, 326240288#32, 345639545#32, 366192342#32,
     387967272#32, 411037006#32, 435478539#32, 461373440#32, 488808132#32, 517874176#32]

/-- DESIGN CHOICE (assumption 8): where the space CFG begins in the model's memory; four words. -/
def Config.cfgBase : Nat := 0

/-- DESIGN CHOICE (assumption 8): where the space INSTR begins; at most 4096 records of nine words. -/
def Config.instrBase : Nat := 16

/-- DESIGN CHOICE (assumption 8): where the command store of channel 0 begins. -/
def Config.codeBase : Nat := 131072

/-- DESIGN CHOICE (assumption 8): the distance between the command stores of two channels: 4096 words. -/
def Config.codeStride : Nat := 8192

/-- The largest number of instruments, and of commands in one store (R4, R68). -/
def Config.indexLimit : Nat := 4096

end Sys2Proof
end

