-- ==== Sys2Proof/Machine/State.lean ====
section
/-! DEFINITION. The state of the block: the tune store, the channel units, the engine registers (10_state.md R20 to
R42), the parameters of 00_scope.md R4 as plain data, and the model's own fields (assumptions 1 to 5 and 12). -/

namespace Sys2Proof.Machine

/-- `RUN` (R40). Its bit encoding is not fixed (R93). -/
inductive RunState where
  | halted | running | faulted
  deriving DecidableEq, Repr

/-- The values of `FCAUSE` (R201): no fault yet, or one of the five causes. The codes 6 and 7 are never written. -/
inductive FaultCause where
  | none | codeRange | instrRange | illegalCommand | reservedWaveform | divideByZero
  deriving DecidableEq, Repr

/-- The 3-bit code of a fault cause (R201). -/
def FaultCause.code : FaultCause → BitVec 3
  | .none => 0#3
  | .codeRange => 1#3
  | .instrRange => 2#3
  | .illegalCommand => 3#3
  | .reservedWaveform => 4#3
  | .divideByZero => 5#3

/-- The registers of one channel unit (R25 to R38). -/
structure Channel where
  /-- `PC`, the command cursor, u16 (R25). -/
  pc : Word
  /-- `INSTR`, the active instrument, u12 (R26). -/
  instr : BitVec 12
  /-- `WSELC`, the latched carrier waveform (R27). -/
  wselc : Waveform
  /-- `WSELM`, the latched modulator waveform (R27). -/
  wselm : Waveform
  /-- `NFL`, frames left in the note, s32 (R28). -/
  nfl : Long
  /-- `CPH`, the carrier phase, u16 (R29). -/
  cph : Word
  /-- `CSTEP`, the carrier step, u16 (R30). -/
  cstep : Word
  /-- `MPH`, the modulator phase, u16 (R31). -/
  mph : Word
  /-- `MSTEP`, the modulator step, u16 (R32). -/
  mstep : Word
  /-- `PANL`, u9 (R33). -/
  panL : BitVec 9
  /-- `PANR`, u9 (R33). -/
  panR : BitVec 9
  /-- `AMPL`, s32 with 24 fraction bits (R34). -/
  ampL : Long
  /-- `AMPR`, s32 with 24 fraction bits (R34). -/
  ampR : Long
  /-- `EFR[0..3]`, remaining frames of each stage, u32 (R35). -/
  efr : Vector Long 4
  /-- `EDL[0..3]`, left deltas, s32 (R36). -/
  edl : Vector Long 4
  /-- `EDR[0..3]`, right deltas, s32 (R36). -/
  edr : Vector Long 4
  /-- `ECUR`, the stage cursor: 0 to 3 a stage, 4 done (R37, R92). -/
  ecur : Fin 5
  /-- `LOOP`, the repeat counter, u12 (R38). -/
  loop : BitVec 12
  deriving DecidableEq, Repr

/-- A channel unit after reset (R42). -/
def Channel.reset : Channel where
  pc := 0#16
  instr := 0#12
  wselc := .sine
  wselm := .sine
  nfl := 0#32
  cph := 0#16
  cstep := 0#16
  mph := 0#16
  mstep := 0#16
  panL := 256#9
  panR := 256#9
  ampL := 0#32
  ampR := 0#32
  efr := #v[0#32, 0#32, 0#32, 0#32]
  edl := #v[0#32, 0#32, 0#32, 0#32]
  edr := #v[0#32, 0#32, 0#32, 0#32]
  ecur := 4
  loop := 0#12

/-- One stereo frame: lane 0 is left, lane 1 is right (R9, R39). -/
structure Frame where
  l : Byte
  r : Byte
  deriving DecidableEq, Repr

/-- The silent frame, both lanes zero. -/
def Frame.zero : Frame := ⟨0#8, 0#8⟩

/-- Where the engine stands inside `EngineFrame` (R182, R181, R168). DESIGN CHOICE, assumption 1: the control points
between which the model takes one step. -/
inductive Phase where
  /-- Between frames: the host's turn (R180). -/
  | idle
  /-- At the head of the loop of `ChannelFrame(cur)` (R181). -/
  | head
  /-- In `Execute(cur)` (R168): `eager` says that it was called after the note's last frame, so that `ChannelFrame`
  returns when it ends; otherwise the loop of `ChannelFrame` goes round again. -/
  | execute (eager : Bool)
  /-- `ChannelFrame(cur)` has returned (R182). -/
  | chanDone
  deriving DecidableEq, Repr

/-- A word of the tune store as a host addresses it (R60, R63, R64): one half of a configuration word, a word of
an instrument record, a command word. -/
inductive TuneWord where
  | sampleRateLow | sampleRateHigh | beatLenLow | beatLenHigh
  | instr (i : Nat) (j : Fin 9)
  | code (c k : Nat)
  deriving DecidableEq, Repr

/-- What a `LOAD` writes: one word, or a whole serialised image (R64, R186). -/
inductive LoadItem where
  | word (a : TuneWord) (w : Word)
  | image (ws : List Word)
  deriving DecidableEq, Repr

/-- The host's moves (R186). -/
inductive HostMove where
  | reset
  | load (item : LoadItem)
  | start
  | pull
  | status
  deriving DecidableEq, Repr

/-- What the host is given (R182, R186): a delivered frame, or the answer of a `STATUS` read. -/
inductive HostEvent where
  | frame (f : Frame)
  | status (run : RunState) (cause : FaultCause) (chan : Nat) (pc : Word)
  deriving DecidableEq, Repr

/-- Which generator an oscillator with an OPEN function has: the spec's reference definition, or the device's own,
an uninterpreted constant of Config (R103, R109, D13). Assumption 10. -/
inductive OscUnit where
  | reference | device
  deriving DecidableEq, Repr

/-- The OPEN parameters of R4 as plain data (assumption 6). NCHAN is the length of `State.ch`. -/
structure Params where
  /-- NINSTR. -/
  ninstr : Nat
  /-- CODE_LEN[c]; 0 for a channel the list does not reach. -/
  codeLen : List Nat
  /-- FREQ_TABLE[0..11] (R122). -/
  freqTable : Vector Long 12
  /-- The unit behind waveform code 0 (R103, R104). -/
  sine : OscUnit
  /-- The unit behind waveform code 4 (R109, R110). -/
  noise : OscUnit
  deriving DecidableEq, Repr

/-- DESIGN CHOICE (assumption 6): the parameters at power-on, before a tune is loaded: one channel with an empty
store, no instruments, the default table and the reference oscillators. -/
def Params.initial : Params where
  ninstr := 0
  codeLen := [0]
  freqTable := Config.defaultFreqTable
  sine := .reference
  noise := .reference

/-- The tune store as bytes: (address, byte) pairs with rising addresses. An address that is not listed holds no
value (assumption 9). -/
abbrev Memory := List Host.Cell

/-- The canonical form: addresses strictly rising. Nothing listed equals what an unlisted address reads as, since
that is no value. -/
def Memory.wf : Memory → Bool
  | [] => true
  | [_] => true
  | x :: y :: rest => decide (x.1 < y.1) && Memory.wf (y :: rest)

/-- The model's own stops. None is an outcome of every path of an instruction. -/
inductive Fault where
  /-- A word of the tune store that nothing has loaded is read: raised by `NOTE`, `SETI`, `BEAT`, by the fetch and by
  a rendered frame. R42 asks for it ("a model should treat a read of a never-written tune word as a fault"). Safe. -/
  | unloadedTuneWord
  /-- A frame is to be rendered and no envelope stage has a frame left: raised by `WavegenFrame` outside its
  precondition. R151 asks for it. Safe. -/
  | envelopeDone
  /-- A frame is to be rendered and the active instrument is not in the table: raised by `WavegenFrame` in states no
  run reaches (assumption 17). Safe. -/
  | instrumentGone
  /-- The engine is at a channel that does not exist: raised by the frame, the fetch and every command in states no
  run reaches (assumption 18). Safe. -/
  | noSuchChannel
  deriving DecidableEq, Repr

/-- Reasons to refuse an instruction. -/
inductive Refusal where
  /-- An instruction without a meaning, by its mnemonic: raised by `exec`'s arm. No arm raises it. Safe. -/
  | notModelled (mnemonic : String)
  deriving DecidableEq, Repr

/-- The state of the block. -/
structure State where
  /-- The tune store: CFG, INSTR and CODE[c] (R20 (1), R60). -/
  mem : Memory
  /-- The OPEN parameters (R4). -/
  params : Params
  /-- The channel units, NCHAN of them (R20 (2), R214). -/
  ch : List Channel
  /-- `OUT[0]` and `OUT[1]` (R39). -/
  out : Frame
  /-- `RUN` (R40). -/
  run : RunState
  /-- `FCAUSE` (R41). -/
  fcause : FaultCause
  /-- `FCHAN` (R41). -/
  fchan : Nat
  /-- `FPC` (R41). -/
  fpc : Word
  /-- The model's own: where the engine stands (assumption 1). -/
  phase : Phase
  /-- The model's own: the channel the engine is at (assumption 1). -/
  cur : Nat
  /-- The model's own: the host's moves not yet taken, oldest first (assumption 2). -/
  port : List HostMove
  /-- The model's own: RESET asked for whatever the engine is doing (assumption 3). -/
  resetLine : Bool
  /-- The model's own: STATUS asked for whatever the engine is doing (assumption 3). -/
  statusLine : Bool
  /-- The model's own: what the host has been given, oldest first (assumption 5). -/
  sent : List HostEvent
  /-- The model's own: the number of free values handed out (assumption 12). -/
  fresh : Nat
  deriving DecidableEq, Repr

/-- The block at power-on with given parameters and NCHAN channels (R42, R231): every register at its reset value,
nothing in the tune store. -/
def State.powerOn (p : Params) (nchan : Nat) : State where
  mem := []
  params := p
  ch := List.replicate nchan Channel.reset
  out := Frame.zero
  run := .halted
  fcause := .none
  fchan := 0
  fpc := 0#16
  phase := .idle
  cur := 0
  port := []
  resetLine := false
  statusLine := false
  sent := []
  fresh := 0

/-- The machine right after reset, at power-on (R42, R230, R231; assumptions 1 to 6, 9 to 12). -/
def State.reset : State := State.powerOn Params.initial 1

end Sys2Proof.Machine
end

