-- ==== Sys2Proof/Machine/Operands.lean ====
section
/-! DEFINITION. The arithmetic of the pseudocode (00_scope.md R5 to R7), the operands of the six commands as numbers
(30_encoding.md R81), the waveform codes (R91) and the packing of an instrument record into words (20_memory.md R63). -/

namespace Sys2Proof.Machine

/-! ### Narrowing, shifts and division (R5, R7) -/

/-- `wrap_u16` (R5). -/
def wrapU16 (v : Int) : Word := BitVec.ofInt 16 v

/-- `wrap_s8` (R5): the byte whose two's-complement reading is `sext_8` of `v`. -/
def wrapS8 (v : Int) : Byte := BitVec.ofInt 8 v

/-- A value that fits s32 or u32 as the 32-bit register that holds it. -/
def toLong (v : Int) : Long := BitVec.ofInt 32 v

/-- `a >> n` on Int: the arithmetic right shift, floor of `a / 2^n` (R7). -/
def asr (a : Int) (n : Nat) : Int := a / ((2 ^ n : Nat) : Int)

/-- `a / b` on Int: truncated toward zero (R7), which is defined for `b != 0` only. DESIGN CHOICE (assumption 25): the
quotient by 0 is 0. No step divides by 0 (R125 raises `DivideByZero` before); only the checks of a tune can. -/
def divTrunc (a b : Int) : Int := a.tdiv b

/-- The number is a u16, s32, u32 and so on when it lies in the range of R5. -/
def fitsS32 (v : Int) : Bool := decide (-2147483648 ≤ v) && decide (v < 2147483648)

/-! ### Operand assembly (R81) -/

/-- `pitch = zext(arg[7:0])`, 0 to 255. -/
def pitchValue (pitch : BitVec 8) : Nat := pitch.toNat

/-- `index`, `count`, `target` `= zext(arg[11:0])`, 0 to 4095. -/
def argValue (arg : BitVec 12) : Nat := arg.toNat

/-- `offset = sext_8(arg[7:0])`, -128 to 127. -/
def offsetValue (offset : BitVec 8) : Int := offset.toInt

/-- The command index a `JUMP` names, as the 16-bit cursor holds it. -/
def targetWord (target : BitVec 12) : Word := target.setWidth 16

/-! ### Waveform codes (R91) -/

/-- The code of a waveform. -/
def waveformCode : Waveform → BitVec 3
  | .sine => 0#3
  | .square => 1#3
  | .triangle => 2#3
  | .saw => 3#3
  | .noise => 4#3

/-- The waveform of a code; none for the reserved codes 5, 6 and 7. -/
def waveformOfCode (code : BitVec 3) : Option Waveform :=
  if code = 0#3 then some .sine
  else if code = 1#3 then some .square
  else if code = 2#3 then some .triangle
  else if code = 3#3 then some .saw
  else if code = 4#3 then some .noise
  else none

/-! ### The instrument record's words (R63) -/

/-- `CARWAVE`: word 0, bits 2 to 0. -/
def carwaveField (w : Word) : BitVec 3 := w.extractLsb' 0 3

/-- `MODWAVE`: word 0, bits 6 to 4. -/
def modwaveField (w : Word) : BitVec 3 := w.extractLsb' 4 3

/-- `NUM`: word 7, bits 15 to 8. -/
def numField (w : Word) : BitVec 8 := w.extractLsb' 8 8

/-- `DEN`: word 7, bits 7 to 0. -/
def denField (w : Word) : BitVec 8 := w.extractLsb' 0 8

/-- Word 0 of a record: the two waveform codes, the reserved bits 0. -/
def waveWord (carwave modwave : BitVec 3) : Word := 0#9 ++ modwave ++ 0#1 ++ carwave

/-- Word 7 of a record: `NUM` above `DEN`. -/
def ratioWord (num den : BitVec 8) : Word := num ++ den

/-- The nine words of a record, word 0 first. -/
def packInstrument (ins : Instrument) : List Word :=
  [waveWord ins.carwave ins.modwave, ins.peak, ins.att, ins.dec, ins.sus, ins.rel, ins.modamp,
    ratioWord ins.num ins.den, ins.modph0]

/-- The record nine words hold; reserved bits are ignored. None if there are not nine words. -/
def unpackInstrument : List Word → Option Instrument
  | [w0, w1, w2, w3, w4, w5, w6, w7, w8] =>
    some { carwave := carwaveField w0, peak := w1, att := w2, dec := w3, sus := w4, rel := w5,
           modwave := modwaveField w0, modamp := w6, num := numField w7, den := denField w7, modph0 := w8 }
  | _ => none

end Sys2Proof.Machine
end

