-- ==== Sys2Proof/Machine/Derived.lean ====
section
/-! DEFINITION. The three derived-value units of an instrument: SelectWavegen, PitchToSteps, BuildEnvelope
(41_instrument.md R120 to R129). Combinational: they read no state. -/

namespace Sys2Proof.Machine

/-! ### SelectWavegen (R121) -/

/-- The waveform pair of two codes; none when a code is reserved (R121, R207). -/
def selectWavegen (carwave modwave : BitVec 3) : Option (Waveform × Waveform) :=
  match waveformOfCode carwave, waveformOfCode modwave with
  | some a, some b => some (a, b)
  | _, _ => none

/-! ### PitchToSteps (R122 to R126) -/

/-- The highest note, B8 (`MAX_PITCH`, R4). -/
def maxPitch : Nat := 107

/-- Octaves below the top (R123). -/
def octaveOf (pitch : Nat) : Nat := (107 - pitch) / 12

/-- The index into the top octave's table (R123): `octave * 12 + pitch - 107 + 11`. -/
def tableIndex (pitch : Nat) : Nat := octaveOf pitch * 12 + pitch + 11 - 107

/-- The top-octave value halved once for each octave below the top (R123). -/
def carrierBase (table : Vector Long 12) (pitch : Nat) : Nat :=
  (table.toList.getD (tableIndex pitch) 0#32).toNat >>> octaveOf pitch

/-- The rounding division by the sample rate, `/` truncating (R124, for `sr >= 1`). For `sr = 0`, which no step reaches, it
is 1 by the choice of `divTrunc` (assumption 25). -/
def roundDiv (b sr : Int) : Int := divTrunc (b - divTrunc (sr + 1) 2) sr + 1

/-- The modulator's base: multiply first, then divide, exactly (R125). DESIGN CHOICE (assumption 25): for `den = 0`, which
R7 leaves undefined, it is 0; `pitchToSteps` raises `DivideByZero` there, and only the checks of a tune see it. -/
def modBase (base num den : Nat) : Nat := base * num / den

/-- `PitchToSteps` (R125): the carrier and modulator steps, or none where it raises `DivideByZero`. -/
def pitchToSteps (table : Vector Long 12) (sr : Nat) (num den : Nat) (pitch : Nat) : Option (Word × Word) :=
  if maxPitch < pitch then some (0#16, 0#16)
  else if den = 0 ∨ sr = 0 then none
  else some
    (wrapU16 (roundDiv (carrierBase table pitch) sr),
     wrapU16 (roundDiv (modBase (carrierBase table pitch) num den) sr))

/-! ### BuildEnvelope (R127, R128) -/

/-- The frame counts of the four stages (R127). -/
structure StageCounts where
  attack : Nat
  decay : Nat
  sustain : Nat
  release : Nat
  deriving DecidableEq, Repr

/-- A time in 1/4096 s as frames: `(time * sr) >> 12` (R127). -/
def timeFrames (time : Word) (sr : Nat) : Nat := (time.toNat * sr) >>> 12

/-- The stage frame counts of a note of `len` frames: each timed stage clamped to what is left, sustain the rest
(R127). -/
def stageCounts (sr : Nat) (att dec rel : Word) (len : Nat) : StageCounts :=
  let fa := min (timeFrames att sr) len
  let fd := min (timeFrames dec sr) (len - fa)
  let fr := min (timeFrames rel sr) (len - fa - fd)
  { attack := fa, decay := fd, sustain := len - fa - fd - fr, release := fr }

/-- `Delta(total, n)`: the step divided by the frame count, or the whole step for a zero-length stage (R128). -/
def stageDelta (total : Int) (n : Nat) : Int := if 0 < n then divTrunc total n else total

/-- The deltas of one lane (R128): the gain times the lane's pan, divided by the stage's count. -/
def laneDeltas (n : StageCounts) (peak sus : Word) (pan : BitVec 9) : Vector Long 4 :=
  #v[toLong (stageDelta ((peak.toNat : Int) * pan.toNat) n.attack),
     toLong (stageDelta (((sus.toNat : Int) - peak.toNat) * pan.toNat) n.decay),
     0#32,
     toLong (stageDelta (-(sus.toNat : Int) * pan.toNat) n.release)]

end Sys2Proof.Machine
end

