-- ==== Sys2Proof/Machine/Flags.lean ====
section
/-! DEFINITION. The block has no status flags and no condition codes, and no command sets one (10_state.md R43). What
it tests instead are registers: these are the tests R43 lists. -/

namespace Sys2Proof.Machine

/-- `REPT`'s test: `LOOP = 0`, no loop in progress (R43, R166). -/
def Channel.loopIdle (c : Channel) : Bool := c.loop == 0#12

/-- The datapath's test `CSTEP = 0`: the wavegen is skipped (R43, R181). -/
def Channel.silent (c : Channel) : Bool := c.cstep == 0#16

/-- The frame test: `NFL >= 1`, the channel is in its generate phase (R28, R181). -/
def Channel.generating (c : Channel) : Bool := decide (1 ≤ c.nfl.toInt)

/-- `BEAT`'s test: the accumulated amplitude is exactly zero on both lanes (R43, R164, D17). -/
def Channel.ampZero (c : Channel) : Bool := c.ampL == 0#32 && c.ampR == 0#32

/-- The stage the cursor selects, or none when every stage is finished (R37). -/
def Channel.stage (c : Channel) : Option (Fin 4) :=
  if h : c.ecur.val < 4 then some ⟨c.ecur.val, h⟩ else none

/-- The stage test: `EFR[k] = 0`, the stage has no frame left (R43, R141). -/
def Channel.stageEmpty (c : Channel) (k : Fin 4) : Bool := c.efr.get k == 0#32

end Sys2Proof.Machine
end

