-- ==== Sys2Proof/Machine/Oscillators.lean ====
section
/-! DEFINITION. The oscillator bank (40_oscillators.md R100 to R111). Each oscillator is a function from the 16 bits
of a phase, read as s16, to the 16 bits of a sample, read as s16: total, without state, and of period 65536 by
the width of its argument (R100, R102). -/

namespace Sys2Proof.Machine

/-- The sign mask of a phase: all ones when it is negative, else 0 (`p >> 15`, R103). -/
def signMask (p : Word) : Word := if p.toInt < 0 then 0xFFFF#16 else 0x0000#16

/-- The folded phase `p XOR sign`, 0 to 32767 (R103, R104, R107). -/
def foldedPhase (p : Word) : Int := (p ^^^ signMask p).toInt

/-- The reference definition of `OSC_SINE` (R104). -/
def oscSineReference (p : Word) : Word :=
  let y := foldedPhase p - 16384
  let u := asr (y * y) 14
  let t := asr (u * 7659) 14
  let v := 32767 - asr (u * (40426 - t)) 14
  wrapU16 v ^^^ signMask p

/-- `OSC_SQUARE`: the upper extreme on the non-negative half (R105). -/
def oscSquare (p : Word) : Word := if 0 ≤ p.toInt then wrapU16 32767 else wrapU16 (-32768)

/-- `OSC_TRI`: the folded phase mapped linearly onto the range (R107). -/
def oscTriangle (p : Word) : Word := wrapU16 (2 * foldedPhase p - 32768)

/-- `OSC_SAW`: the phase itself (R108). -/
def oscSaw (p : Word) : Word := p

/-- The reference definition of `OSC_NOISE`: three multiplications and two additions modulo 2^32, then the low 16
bits (R110). -/
def oscNoiseReference (p : Word) : Word :=
  let n : Long := p.signExtend 32
  let h := n * n * 15731#32 + 789221#32
  (n * h + 1376312589#32).setWidth 16

/-- `OSC[w]` applied to a phase register (R100, R111). The sine and noise functions are OPEN parameters: the reference
definition or the device's own (assumption 10). -/
def osc (p : Params) (w : Waveform) (phase : Word) : Word :=
  match w with
  | .sine => match p.sine with
    | .reference => oscSineReference phase
    | .device => Config.deviceSine phase
  | .square => oscSquare phase
  | .triangle => oscTriangle phase
  | .saw => oscSaw phase
  | .noise => match p.noise with
    | .reference => oscNoiseReference phase
    | .device => Config.deviceNoise phase

end Sys2Proof.Machine
end

