-- ==== Sys2Proof/Machine/Wavegen.lean ====
section
/-! DEFINITION. The per-frame datapath of one channel: envelope advance, modulator, carrier, amplitude scaling, mix
(42_envelope_wavegen.md R140 to R153). Functions of the channel's registers alone. -/

namespace Sys2Proof.Machine

/-! ### Envelope (R140 to R142) -/

/-- The amplitude register after adding a delta: the exact sum. Where it does not fit s32, which no run of a loaded
tune reaches (R34), the register holds a free value (assumption 14). -/
def addAmplitude (amp delta : Long) : Long :=
  if fitsS32 (amp.toInt + delta.toInt) then toLong (amp.toInt + delta.toInt)
  else Config.freeAmplitude (amp.toInt + delta.toInt)

/-- Both lanes' amplitudes advanced by the deltas of stage `k` (R141, R142). -/
def Channel.applyDelta (c : Channel) (k : Fin 4) : Channel :=
  { c with ampL := addAmplitude c.ampL (c.edl.get k), ampR := addAmplitude c.ampR (c.edr.get k) }

/-- The cursor moved past stage `k` (R141). -/
def Channel.passStage (c : Channel) (k : Fin 4) : Channel := { c with ecur := k.succ }

/-- At most `n` rounds of the loop of `SkipZeroStages` (R141). -/
def Channel.skipStages : Nat → Channel → Channel
  | 0, c => c
  | n + 1, c =>
    match c.stage with
    | none => c
    | some k => if c.stageEmpty k then Channel.skipStages n ((c.applyDelta k).passStage k) else c

/-- `SkipZeroStages` (R141): it runs at most four iterations. -/
def Channel.skipZeroStages (c : Channel) : Channel := c.skipStages 4

/-- The active stage's frame count taken down by one (R142). -/
def Channel.countStage (c : Channel) (k : Fin 4) : Channel :=
  { c with efr := c.efr.set k.val (c.efr.get k - 1#32) }

/-- `EnvelopeTick` with `k` the active stage (R142). -/
def Channel.envelopeTick (c : Channel) (k : Fin 4) : Channel :=
  let c1 := (c.applyDelta k).countStage k
  if c1.stageEmpty k then (c1.passStage k).skipZeroStages else c1

/-! ### Modulator, carrier, scaling, mix (R143 to R147) -/

/-- The modulator value of a sample `m` (R143): `(m * MODAMP) >> 20`. -/
def modValue (m : Int) (modamp : Word) : Int := asr (m * modamp.toNat) 20

/-- The modulated carrier increment (R144): `(CSTEP * (modValue + 2048)) / 2048`. -/
def modulatedInc (cstep : Word) (mv : Int) : Int := divTrunc ((cstep.toNat : Int) * (mv + 2048)) 2048

/-- The contribution of one lane (R146): `(cv * (A >> 9)) >> 23`. -/
def contribution (cv : Int) (amp : Long) : Int := asr (cv * asr amp.toInt 9) 23

/-- `OutAdd` on one lane (R147): the sum wraps modulo 2^8. -/
def outAdd (lane : Byte) (v : Int) : Byte := wrapS8 (lane.toInt + v)

/-- The modulator's sample at the present phase (R143). -/
def Channel.modulatorSample (p : Params) (c : Channel) : Int := (osc p c.wselm c.mph).toInt

/-- The carrier's sample at the pre-advance phase (R145). -/
def Channel.carrierSample (p : Params) (c : Channel) : Int := (osc p c.wselc c.cph).toInt

/-- The channel's contribution added into the output frame (R146, R147). -/
def Channel.mixInto (p : Params) (c : Channel) (o : Frame) : Frame :=
  { l := outAdd o.l (contribution (c.carrierSample p) c.ampL),
    r := outAdd o.r (contribution (c.carrierSample p) c.ampR) }

/-- Both phases advanced by one frame (R101, R144, R148). -/
def Channel.advancePhases (p : Params) (modamp : Word) (c : Channel) : Channel :=
  { c with
    cph := wrapU16 ((c.cph.toNat : Int) + modulatedInc c.cstep (modValue (c.modulatorSample p) modamp)),
    mph := wrapU16 ((c.mph.toNat : Int) + c.mstep.toNat) }

/-- The channel's registers after `WavegenFrame` (R148) with active stage `k`. -/
def Channel.rendered (p : Params) (modamp : Word) (c : Channel) (k : Fin 4) : Channel :=
  (c.advancePhases p modamp).envelopeTick k

/-! ### The fresh note (R164) -/

/-- `NFL` of a note of `len` frames: s32. From 2^31 on the rule has no value (U11): a free one (assumption 12). -/
def nflOf (n len : Nat) : Long := if len < 2147483648 then BitVec.ofNat 32 len else Config.freeLong n

/-- A stage count as the u32 register holds it; one that does not fit is a free value (assumption 13). -/
def stageCountOf (n count : Nat) : Long :=
  if count < 4294967296 then BitVec.ofNat 32 count else Config.freeLong n

/-- The four `EFR` registers of a note; `n` numbers the free values (R128, R35). -/
def stageRegs (n : Nat) (k : StageCounts) : Vector Long 4 :=
  #v[stageCountOf n k.attack, stageCountOf (n + 1) k.decay, stageCountOf (n + 2) k.sustain,
     stageCountOf (n + 3) k.release]

/-- What `BEAT` reads of the active instrument and the configuration (R164). -/
structure BeatOperands where
  sampleRate : Long
  beatLen : Long
  peak : Word
  att : Word
  dec : Word
  sus : Word
  rel : Word
  modph0 : Word
  deriving DecidableEq, Repr

/-- The length of a note in frames, exactly: `BEAT_LEN * count` (R164). -/
def BeatOperands.noteFrames (o : BeatOperands) (count : BitVec 12) : Nat := o.beatLen.toNat * argValue count

/-- The stage counts of a note under these operands (R127). -/
def BeatOperands.counts (o : BeatOperands) (len : Nat) : StageCounts :=
  stageCounts o.sampleRate.toNat o.att o.dec o.rel len

/-- The channel with a fresh envelope for a note of `len` frames: amplitude 0, cursor at the attack stage (R164). -/
def Channel.freshNote (o : BeatOperands) (len n : Nat) (c : Channel) : Channel :=
  { c with
    nfl := nflOf n len,
    ampL := 0#32, ampR := 0#32,
    efr := stageRegs (n + 1) (o.counts len),
    edl := laneDeltas (o.counts len) o.peak o.sus c.panL,
    edr := laneDeltas (o.counts len) o.peak o.sus c.panR,
    ecur := 0 }

/-- The phases reset when the fresh amplitude is exactly zero, and kept otherwise (R164, D17). -/
def Channel.settlePhases (modph0 : Word) (c : Channel) : Channel :=
  if c.ampZero then { c with cph := 0#16, mph := modph0 } else c

/-- The channel's registers after `BEAT`, but for `PC` (R164). -/
def Channel.startNote (o : BeatOperands) (len n : Nat) (c : Channel) : Channel :=
  ((c.freshNote o len n).skipZeroStages).settlePhases o.modph0

end Sys2Proof.Machine
end

