-- ==== Sys2Proof/Machine/Ops.lean ====
section
/-! DEFINITION. The named operations over memory and registers: the tune store's bytes and words (20_memory.md), the
reads of each command (R61), the fetch (43_commands.md R160), the channel at the engine's place, and fault entry
(60_exceptions.md R204), which is the one way an exception is taken. -/

namespace Sys2Proof.Machine

/-- What a step answers. -/
abbrev Out := Host.Outcome State Fault Refusal

/-! ### Memory: bytes, then words with the low byte first (R65) -/

/-- The byte at an address, or none where nothing is listed. -/
def Memory.read : Memory → Nat → Option Byte
  | [], _ => none
  | (k, v) :: rest, a => if k = a then some v else Memory.read rest a

/-- The memory with one byte written, in canonical form. -/
def Memory.write : Memory → Nat → Byte → Memory
  | [], a, b => [(a, b)]
  | (k, v) :: rest, a, b =>
    if a < k then (a, b) :: (k, v) :: rest
    else if a = k then (a, b) :: rest
    else (k, v) :: Memory.write rest a b

/-- The 16-bit word whose low byte is at `a`. -/
def Memory.readWord (m : Memory) (a : Nat) : Option Word :=
  match m.read a, m.read (a + 1) with
  | some lo, some hi => some (wordOfBytes lo hi)
  | _, _ => none

/-- The 32-bit word whose low half is at `a` (R64, R65). -/
def Memory.readLong (m : Memory) (a : Nat) : Option Long :=
  match m.readWord a, m.readWord (a + 2) with
  | some lo, some hi => some (hi ++ lo)
  | _, _ => none

/-- The memory with one 16-bit word written. -/
def Memory.writeWord (m : Memory) (a : Nat) (w : Word) : Memory :=
  (m.write a (lowByte w)).write (a + 1) (highByte w)

/-- The memory with consecutive words written, the first at `a`. -/
def Memory.writeWords : Memory → Nat → List Word → Memory
  | m, _, [] => m
  | m, a, w :: rest => Memory.writeWords (m.writeWord a w) (a + 2) rest

/-! ### The placement of the spaces (TUNE_MAP, R64; assumption 8) -/

/-- The address of word `j` of instrument `i`: nine words a record (R63). -/
def instrAddr (i j : Nat) : Nat := Config.instrBase + 18 * i + 2 * j

/-- The address of `CODE[c][k]`. -/
def codeAddr (c k : Nat) : Nat := Config.codeBase + Config.codeStride * c + 2 * k

/-- The address of a word of the tune store. -/
def tuneAddr : TuneWord → Nat
  | .sampleRateLow => Config.cfgBase
  | .sampleRateHigh => Config.cfgBase + 2
  | .beatLenLow => Config.cfgBase + 4
  | .beatLenHigh => Config.cfgBase + 6
  | .instr i j => instrAddr i j.val
  | .code c k => codeAddr c k

/-! ### Reads of the tune store (R8, R61, R67) -/

/-- `CfgRead(SAMPLE_RATE)` (R21). -/
def State.sampleRate (s : State) : Option Long := s.mem.readLong Config.cfgBase

/-- `CfgRead(BEAT_LEN)` (R22). -/
def State.beatLen (s : State) : Option Long := s.mem.readLong (Config.cfgBase + 4)

/-- Word `j` of instrument `i` (R63). -/
def State.instrWord (s : State) (i : BitVec 12) (j : Nat) : Option Word :=
  s.mem.readWord (instrAddr i.toNat j)

/-- `CodeRead(c, k)` (R24). -/
def State.codeWord (s : State) (c : Nat) (k : Word) : Option Word := s.mem.readWord (codeAddr c k.toNat)

/-- `CODE_LEN[c]` (R4). -/
def State.codeLen (s : State) (c : Nat) : Nat := s.params.codeLen.getD c 0

/-- An instrument index is valid when it is below NINSTR (R62). -/
def State.instrValid (s : State) (i : BitVec 12) : Bool := decide (i.toNat < s.params.ninstr)

/-- What `NOTE` reads for a pitch up to 107 (R162): the sample rate and the ratio. -/
structure NoteOperands where
  sampleRate : Long
  num : BitVec 8
  den : BitVec 8
  deriving DecidableEq, Repr

/-- `NOTE`'s reads, or none when one of the words is not loaded (R162). -/
def State.noteOperands (s : State) (i : BitVec 12) : Option NoteOperands :=
  match s.sampleRate, s.instrWord i 7 with
  | some sr, some w => some { sampleRate := sr, num := numField w, den := denField w }
  | _, _ => none

/-- `SETI`'s read: the record's word 0, which holds `CARWAVE` and `MODWAVE` (R163). -/
def State.waveWordOf (s : State) (i : BitVec 12) : Option Word := s.instrWord i 0

/-- `BEAT`'s reads, or none when one of the words is not loaded (R164). -/
def State.beatOperands (s : State) (i : BitVec 12) : Option BeatOperands :=
  match s.sampleRate, s.beatLen, s.instrWord i 1, s.instrWord i 2, s.instrWord i 3, s.instrWord i 4,
      s.instrWord i 5, s.instrWord i 8 with
  | some sr, some bl, some peak, some att, some dec, some sus, some rel, some ph =>
    some { sampleRate := sr, beatLen := bl, peak := peak, att := att, dec := dec, sus := sus, rel := rel,
           modph0 := ph }
  | _, _, _, _, _, _, _, _ => none

/-- A rendered frame's read: `MODAMP` (R143). -/
def State.modamp (s : State) (i : BitVec 12) : Option Word := s.instrWord i 6

/-- Goes on with the words read, or stops where one of them has not been loaded (R42). -/
def reading {α : Type} (o : Option α) (k : α → Out) : Out :=
  match o with
  | some a => k a
  | none => .fault .unloadedTuneWord

/-! ### The channel at the engine's place -/

/-- The channel unit the engine is at. -/
def State.chan (s : State) : Option Channel := s.ch[s.cur]?

/-- Goes on with the channel unit the engine is at. -/
def State.onChan (s : State) (k : Channel → Out) : Out :=
  match s.chan with
  | some c => k c
  | none => .fault .noSuchChannel

/-- The registers of the engine's channel unit written back. -/
def State.setChan (s : State) (c : Channel) : State := { s with ch := s.ch.set s.cur c }

/-- `PC <- v` (R8). -/
def Channel.setPc (c : Channel) (v : Word) : Channel := { c with pc := v }

/-- `PC <- pc0 + 1` (R161). -/
def Channel.advance (c : Channel) : Channel := c.setPc (c.pc + 1#16)

/-- The steps latched by `NOTE` (R162). -/
def Channel.setSteps (c : Channel) (cs ms : Word) : Channel := { c with cstep := cs, mstep := ms }

/-- The instrument and waveform pair latched by `SETI` (R163). -/
def Channel.setInstr (c : Channel) (i : BitVec 12) (a b : Waveform) : Channel :=
  { c with instr := i, wselc := a, wselm := b }

/-- The pan pair latched by `PAN` (R167). -/
def Channel.setPan (c : Channel) (l r : BitVec 9) : Channel := { c with panL := l, panR := r }

/-- The loop counter written by `REPT` (R166). -/
def Channel.setLoop (c : Channel) (v : BitVec 12) : Channel := { c with loop := v }

/-- `NFL <- NFL - 1` (R181). -/
def Channel.countFrame (c : Channel) : Channel := { c with nfl := toLong (c.nfl.toInt - 1) }

/-! ### Fault entry (R204) -/

/-- `raise Fault(cause, (cur, pc0))`: the command has no effect on any channel register, on `OUT` or on the tune store;
if `RUN = RUNNING` the record is written and the block is `FAULTED`; the frame in progress is abandoned (R204). There
is no handler and no return: only RESET leaves `FAULTED` (R212). -/
def State.raise (s : State) (cause : FaultCause) (pc0 : Word) : State :=
  if s.run = .running then
    { s with fcause := cause, fchan := s.cur, fpc := pc0, run := .faulted, phase := .idle }
  else { s with phase := .idle }

/-! ### Fetch (R160) -/

/-- What a fetch gives: a command, a fault to raise, or a word nothing has loaded. -/
inductive Fetched where
  | command (i : Instr)
  | raises (cause : FaultCause)
  | unloaded
  deriving DecidableEq, Repr

/-- `Fetch(cur)` with the cursor at `pc` (R160): the bounds check, the read of two bytes, the decoder. It has no side
effect. -/
def State.fetch (s : State) (pc : Word) : Fetched :=
  if s.codeLen s.cur ≤ pc.toNat then .raises .codeRange
  else match s.mem.read (codeAddr s.cur pc.toNat), s.mem.read (codeAddr s.cur pc.toNat + 1) with
    | some lo, some hi =>
      match decode [lo, hi] with
      | .ok (i, _) => .command i
      | .error _ => .raises .illegalCommand
    | _, _ => .unloaded

/-- Where the engine goes when `BEAT` ends the execute phase (R168, R181): `ChannelFrame` returns if the phase was
entered after the note's last frame, and goes round its loop otherwise. -/
def afterExecute : Phase → Phase
  | .execute true => .chanDone
  | .execute false => .head
  | p => p

end Sys2Proof.Machine
end

