-- ==== Sys2Proof/Machine/Beat.lean ====
section
/-! DEFINITION. `BEAT`, the command that starts a note and ends the execute phase (43_commands.md R164, R168). -/

namespace Sys2Proof.Machine

/-- The number of free values one `BEAT` hands out: five when its length leaves the range of `NFL`, none otherwise
(U11; assumptions 12 and 13). -/
def beatFresh (len : Nat) : Nat := if len < 2147483648 then 0 else 5

/-- The state after a `BEAT` that has read its operands (R164): the channel's note started, the execute phase ended
(R168). -/
def State.beginNote (s : State) (c : Channel) (o : BeatOperands) (len : Nat) : State :=
  { s.setChan (c.startNote o len s.fresh).advance with
    phase := afterExecute s.phase, fresh := s.fresh + beatFresh len }

/-- `BEAT count` (R164): the index check, the reads, then the note of `BEAT_LEN * count` frames. -/
def execBeat (count : BitVec 12) (s : State) : Out :=
  s.onChan fun c =>
    if s.instrValid c.instr then
      reading (s.beatOperands c.instr) fun o => .next (s.beginNote c o (o.noteFrames count))
    else .next (s.raise .instrRange c.pc)

end Sys2Proof.Machine
end

