-- ==== Sys2Proof/Machine/Control.lean ====
section
/-! DEFINITION. The control-flow commands `JUMP` and `REPT` (43_commands.md R165, R166). -/

namespace Sys2Proof.Machine

/-- `JUMP target` (R165): the cursor becomes the target; nothing is read and nothing faults here. -/
def execJump (target : BitVec 12) (s : State) : Out :=
  s.onChan fun c => .next (s.setChan (c.setPc (targetWord target)))

/-- The channel after `REPT count` (R166): the counter loaded when it is 0; otherwise decremented, and the next command
skipped when it reaches 0. -/
def Channel.repeatStep (c : Channel) (count : BitVec 12) : Channel :=
  if c.loopIdle then (c.setLoop count).advance
  else
    let c1 := c.setLoop (c.loop - 1#12)
    if c1.loopIdle then c1.setPc (c1.pc + 2#16) else c1.advance

/-- `REPT count` (R166). -/
def execRept (count : BitVec 12) (s : State) : Out :=
  s.onChan fun c => .next (s.setChan (c.repeatStep count))

end Sys2Proof.Machine
end

