-- ==== Sys2Proof/Machine/Prepare.lean ====
section
/-! DEFINITION. The commands that only prepare registers: `NOTE`, `SETI`, `PAN` (43_commands.md R162, R163, R167;
70_reset_and_hazards.md R238). -/

namespace Sys2Proof.Machine

/-- `NOTE pitch` (R162). A pitch above 107 silences both steps and reads nothing; otherwise the index check, then the
reads, then the division check, in this order (R208). -/
def execNote (pitch : BitVec 8) (s : State) : Out :=
  s.onChan fun c =>
    if maxPitch < pitchValue pitch then .next (s.setChan (c.setSteps 0#16 0#16).advance)
    else if s.instrValid c.instr then
      reading (s.noteOperands c.instr) fun o =>
        match pitchToSteps s.params.freqTable o.sampleRate.toNat o.num.toNat o.den.toNat (pitchValue pitch) with
        | some (cs, ms) => .next (s.setChan (c.setSteps cs ms).advance)
        | none => .next (s.raise .divideByZero c.pc)
    else .next (s.raise .instrRange c.pc)

/-- `SETI index` (R163): the index check, then the read, then the reserved-code check (R208). -/
def execSeti (index : BitVec 12) (s : State) : Out :=
  s.onChan fun c =>
    if s.instrValid index then
      reading (s.waveWordOf index) fun w =>
        match selectWavegen (carwaveField w) (modwaveField w) with
        | some (a, b) => .next (s.setChan (c.setInstr index a b).advance)
        | none => .next (s.raise .reservedWaveform c.pc)
    else .next (s.raise .instrRange c.pc)

/-- The left pan of an offset (R167). -/
def panLeft (offset : Int) : Int := if offset ≤ 0 then 256 else 256 - offset * 2 - 2

/-- The right pan of an offset (R167). -/
def panRight (offset : Int) : Int := if offset ≤ 0 then 256 + offset * 2 else 256

/-- `PAN offset` (R167). -/
def execPan (offset : BitVec 8) (s : State) : Out :=
  s.onChan fun c =>
    .next (s.setChan
      (c.setPan (BitVec.ofInt 9 (panLeft (offsetValue offset)))
        (BitVec.ofInt 9 (panRight (offsetValue offset)))).advance)

end Sys2Proof.Machine
end

