-- ==== Sys2Proof/Machine/Dispatch.lean ====
section
/-! DEFINITION. One arm for each command, in the order of spec/opcode_table.json. -/

namespace Sys2Proof.Machine

def exec (i : Instr) (s : State) : Host.Outcome State Fault Refusal :=
  match i with
  | .note pitch => Sys2Proof.Machine.execNote pitch s
  | .seti index => Sys2Proof.Machine.execSeti index s
  | .beat count => Sys2Proof.Machine.execBeat count s
  | .jump target => Sys2Proof.Machine.execJump target s
  | .rept count => Sys2Proof.Machine.execRept count s
  | .pan offset => Sys2Proof.Machine.execPan offset s

end Sys2Proof.Machine
end

