-- ==== Sys2Proof/Machine/Engine.lean ====
section
/-! DEFINITION. The frame cycle but for the commands (44_frame_engine.md R181, R182): the head of `ChannelFrame`'s
loop, the rendered frame, the move from channel to channel, the delivery. -/

namespace Sys2Proof.Machine

/-- `WavegenFrame(cur)` on the channel `c` (R148): the output frame and the channel's registers after it. Outside its
precondition it stops (R151; assumption 17). -/
def State.wavegenFrame (s : State) (c : Channel) : Except Fault (Frame × Channel) :=
  match c.stage with
  | none => .error .envelopeDone
  | some k =>
    if c.stageEmpty k then .error .envelopeDone
    else if s.instrValid c.instr then
      match s.modamp c.instr with
      | some ma => .ok (c.mixInto s.params s.out, c.rendered s.params ma k)
      | none => .error .unloadedTuneWord
    else .error .instrumentGone

/-- The channel's part of a frame before `NFL` is counted (R181): rendered, or nothing at all when it is silent
(R188). -/
def State.renderOrSkip (s : State) (c : Channel) : Except Fault (Frame × Channel) :=
  if c.silent then .ok (s.out, c) else s.wavegenFrame c

/-- Where `ChannelFrame` goes once a frame has been counted (R181): `Execute` at once when that was the note's last
frame, otherwise it returns. -/
def afterFrame (c : Channel) : Phase := if c.nfl.toInt ≤ 0 then .execute true else .chanDone

/-- One round of `ChannelFrame(cur)` up to its `Execute` or its return (R181). -/
def State.channelHead (s : State) : Out :=
  s.onChan fun c =>
    if c.generating then
      match s.renderOrSkip c with
      | .error f => .fault f
      | .ok (o, c1) => .next { s.setChan c1.countFrame with out := o, phase := afterFrame c1.countFrame }
    else .next { s with phase := .execute false }

/-- The frame handed to the host, left lane first; the engine is between frames again (R182). -/
def State.deliver (s : State) : State :=
  { s with sent := s.sent ++ [.frame s.out], phase := .idle, cur := 0 }

/-- From one channel to the next in ascending order, or to the delivery after the last (R182, R183). -/
def State.nextChannel (s : State) : State :=
  if s.cur + 1 < s.ch.length then { s with cur := s.cur + 1, phase := .head } else s.deliver

/-- A frame request is taken (R182): `OUT` is zeroed and channel 0 begins; with no channels the frame (0, 0) is
delivered at once. -/
def State.startFrame (s : State) : State :=
  if 0 < s.ch.length then { s with out := Frame.zero, cur := 0, phase := .head }
  else State.deliver { s with out := Frame.zero }

end Sys2Proof.Machine
end

