-- ==== Sys2Proof/Machine/HostPort.lean ====
section
/-! DEFINITION. The host port (44_frame_engine.md R185, R186; 70_reset_and_hazards.md R230 to R232) and the loading of
the tune store (20_memory.md R63, R64, R74). -/

namespace Sys2Proof.Machine

/-! ### RESET (R231) -/

/-- `RESET`: every channel register, every engine register and the fault record at its reset value, `RUN` HALTED. The
tune store and the parameters stay (R231), and so do the host's own moves and what it has been given (assumption 4). -/
def State.hostReset (s : State) : State :=
  { s with
    ch := List.replicate s.ch.length Channel.reset
    out := Frame.zero
    run := .halted
    fcause := .none
    fchan := 0
    fpc := 0#16
    phase := .idle
    cur := 0 }

/-! ### LOAD (R186, R74) -/

/-- The words of the tune store that exist for these parameters (R60, R62). -/
def State.tuneWordExists (s : State) : TuneWord → Bool
  | .instr i _ => decide (i < s.params.ninstr)
  | .code c k => decide (c < s.ch.length) && decide (k < s.codeLen c)
  | _ => true

/-- What an image holds (R64): the four configuration words, the records' words, and the command stores. -/
structure ImageParts where
  cfg : List Word
  ninstr : Nat
  records : List Word
  stores : List (List Word)
  deriving DecidableEq, Repr

/-- `n` command stores from the words of an image, each its length and then its words, and what is left (R64). -/
def parseStores : Nat → List Word → Option (List (List Word) × List Word)
  | 0, ws => some ([], ws)
  | _ + 1, [] => none
  | n + 1, len :: ws =>
    if len.toNat ≤ Config.indexLimit ∧ len.toNat ≤ ws.length then
      match parseStores n (ws.drop len.toNat) with
      | some (stores, rest) => some (ws.take len.toNat :: stores, rest)
      | none => none
    else none

/-- The parts of a serialised image, or none where the words are no image of R64 or exceed the limits of R4. -/
def parseImage : List Word → Option ImageParts
  | s0 :: s1 :: b0 :: b1 :: ni :: nc :: ws =>
    if ni.toNat ≤ Config.indexLimit ∧ 9 * ni.toNat ≤ ws.length then
      match parseStores nc.toNat (ws.drop (9 * ni.toNat)) with
      | some (stores, []) =>
        some { cfg := [s0, s1, b0, b1], ninstr := ni.toNat, records := ws.take (9 * ni.toNat), stores := stores }
      | _ => none
    else none
  | _ => none

/-- The command stores written at their places, the first for channel `c`. -/
def writeStores : Memory → Nat → List (List Word) → Memory
  | m, _, [] => m
  | m, c, ws :: rest => writeStores (m.writeWords (codeAddr c 0) ws) (c + 1) rest

/-- The tune store after an image has been loaded. -/
def ImageParts.store (p : ImageParts) (m : Memory) : Memory :=
  writeStores ((m.writeWords Config.cfgBase p.cfg).writeWords (instrAddr 0 0) p.records) 0 p.stores

/-- An image loaded (R64): the store written, NINSTR, NCHAN and CODE_LEN[c] as the image has them, the channel units
sized to match and at their reset values (assumption 7). -/
def State.loadParts (s : State) (p : ImageParts) : State :=
  { s with
    mem := p.store s.mem
    params := { s.params with ninstr := p.ninstr, codeLen := p.stores.map List.length }
    ch := List.replicate p.stores.length Channel.reset }

/-- What a `LOAD` does in `HALTED` (R74). A word that does not exist, or words that are no image, change nothing
(assumption 7). -/
def State.load (s : State) : LoadItem → State
  | .word a w => if s.tuneWordExists a then { s with mem := s.mem.writeWord (tuneAddr a) w } else s
  | .image ws =>
    match parseImage ws with
    | some p => s.loadParts p
    | none => s

/-! ### STATUS (R186) -/

/-- `STATUS`: `RUN` and the fault record given to the host; no side effect. -/
def State.answerStatus (s : State) : State :=
  { s with sent := s.sent ++ [.status s.run s.fcause s.fchan s.fpc] }

/-! ### The host's moves (R186) -/

/-- One host move, made between frames. A move that the run state does not allow is refused and changes nothing (R74,
R186; assumption 4). -/
def State.hostMove (s : State) : HostMove → State
  | .reset => s.hostReset
  | .load item => if s.run = .halted then s.load item else s
  | .start => if s.run = .halted then { s with run := .running, phase := .idle, cur := 0 } else s
  | .pull => if s.run = .running then s.startFrame else s
  | .status => s.answerStatus

/-- The host's turn: its oldest move, or nothing at all while it makes none (R180). -/
def State.hostTurn (s : State) : State :=
  match s.port with
  | [] => s
  | m :: rest => State.hostMove { s with port := rest } m

/-- The RESET line answered, whatever the engine is doing (R186, R230; assumption 3). -/
def State.answerResetLine (s : State) : State := { s.hostReset with resetLine := false }

/-- The STATUS line answered, whatever the engine is doing: STATUS is allowed always, inside a frame and in a hang too
(R186, R209; assumption 3). -/
def State.answerStatusLine (s : State) : State := { s.answerStatus with statusLine := false }

/-- The engine is inside `EngineFrame`: `RUN = RUNNING` and it is not between frames (R180, R182). -/
def State.busy (s : State) : Bool := s.run == .running && s.phase != .idle

/-! ### The serialised image of a tune (R64) -/

/-- The low half of a 32-bit word. -/
def lowHalf (v : Long) : Word := v.extractLsb' 0 16

/-- The high half of a 32-bit word. -/
def highHalf (v : Long) : Word := v.extractLsb' 16 16

/-- A command store as its length and its words (R64). -/
def imageStore (ws : List Word) : List Word := BitVec.ofNat 16 ws.length :: ws

/-- The parts of a tune as a `LOAD` stores them: the configuration words, the records' words, the command stores
(R63, R64). They are there for any number of channels, which R4 does not bound. -/
def tuneParts (t : Tune) : ImageParts where
  cfg := [lowHalf t.sampleRate, highHalf t.sampleRate, lowHalf t.beatLen, highHalf t.beatLen]
  ninstr := t.instruments.length
  records := (t.instruments.map packInstrument).flatten
  stores := t.code

/-- The image of a tune (R64). R64 gives NCHAN one u16 word and R4 gives it no bound. DESIGN CHOICE (assumption 7): for
65536 channels or more the word holds the number modulo 2^16, so that the words are no image of the tune; such a tune is
loaded without an image. -/
def tuneImage (t : Tune) : List Word :=
  (tuneParts t).cfg ++ [BitVec.ofNat 16 t.instruments.length, BitVec.ofNat 16 t.code.length]
  ++ (tuneParts t).records ++ (t.code.map imageStore).flatten

/-- The bytes of a word sequence, low byte first (R65). -/
def imageBytes : List Word → List Byte
  | [] => []
  | w :: ws => lowByte w :: highByte w :: imageBytes ws

/-! ### The host's buffer (R185) -/

/-- The frames among what the host has been given, oldest first. -/
def framesOf : List HostEvent → List Frame
  | [] => []
  | .frame f :: rest => f :: framesOf rest
  | .status _ _ _ _ :: rest => framesOf rest

/-- How many frames a buffer of `nslots` sample slots asks for: an odd last slot consumes none (R185). -/
def pullsFor (nslots : Nat) : Nat := nslots / 2

/-- The buffer of `nslots` sample slots filled from delivered frames: slot `2 i` lane 0 and slot `2 i + 1` lane 1 of
frame `i`; an odd last slot is 0 (R185). -/
def fillBuffer : Nat → List Frame → List Byte
  | n + 2, f :: rest => f.l :: f.r :: fillBuffer n rest
  | 1, _ => [0#8]
  | _, _ => []

/-- The host's moves that answer one `generate` call on a buffer of `nslots` slots (R185). -/
def generateMoves (nslots : Nat) : List HostMove := List.replicate (pullsFor nslots) .pull

end Sys2Proof.Machine
end

