-- ==== Sys2Proof/Machine/Place.lean ====
section
/-! DEFINITION. Placing one command word where the engine fetches next (assumption 19): it stands for the host's
`LOAD` of a program and for the engine having reached the channel's execute phase. -/

namespace Sys2Proof.Machine

/-- A list of lengths in which entry `c` is at least `n`. -/
def growLen : List Nat → Nat → Nat → List Nat
  | [], 0, n => [n]
  | [], c + 1, n => 0 :: growLen [] c n
  | x :: xs, 0, n => max x n :: xs
  | x :: xs, c + 1, n => x :: growLen xs c n

/-- The execute phase the engine is in, or the one it enters from the head of `ChannelFrame` (R181). -/
def executePhase : Phase → Phase
  | .execute eager => .execute eager
  | _ => .execute false

/-- The channel the next fetch is for: the engine's own, or channel 0 where that does not exist. -/
def State.fetchChannel (s : State) : Nat := if s.cur < s.ch.length then s.cur else 0

/-- The channel units, at least one of them. -/
def State.fetchChannels (s : State) : List Channel := if s.ch = [] then [Channel.reset] else s.ch

/-- Bits `w` as the low `nbits` of a word, and the rest zero. -/
def tableWord (nbits w : Nat) : Word := BitVec.ofNat 16 (w % 2 ^ nbits)

/-- The cursor at which channel `c` fetches next. -/
def cursorOf (chs : List Channel) (c : Nat) : Nat :=
  match chs[c]? with
  | some u => u.pc.toNat
  | none => 0

/-- The state whose next fetch reads the word. -/
def State.placeAtCursor (s : State) (nbits w : Nat) : State :=
  let c := s.fetchChannel
  let pc := cursorOf s.fetchChannels c
  { s with
    mem := s.mem.writeWord (codeAddr c pc) (tableWord nbits w)
    params := { s.params with codeLen := growLen s.params.codeLen c (pc + 1) }
    ch := s.fetchChannels
    cur := c
    run := .running
    phase := executePhase s.phase
    resetLine := false
    statusLine := false }

end Sys2Proof.Machine
end

