-- ==== Sys2Proof/Machine/Step.lean ====
section
/-! DEFINITION. One step of the block (assumption 1): the RESET line; else the STATUS line; else, between frames, the
host's turn; else the engine's next action inside `EngineFrame` (R182). -/

namespace Sys2Proof.Machine

/-- One command of `Execute(cur)` (R168): fetched, decoded and executed. -/
def State.executeOne (s : State) : Host.Outcome State Fault Refusal :=
  s.onChan fun c =>
    match s.fetch c.pc with
    | .command i => exec i s
    | .raises cause => .next (s.raise cause c.pc)
    | .unloaded => .fault .unloadedTuneWord

/-- One step. -/
def step (s : State) : Host.Outcome State Fault Refusal :=
  if s.resetLine then .next s.answerResetLine
  else if s.statusLine then .next s.answerStatusLine
  else if s.busy then
    match s.phase with
    | .idle => .next s.hostTurn
    | .head => s.channelHead
    | .execute _ => s.executeOne
    | .chanDone => .next s.nextChannel
  else .next s.hostTurn

/-- The state with the instruction whose bits are `w` placed where the next step fetches its next instruction
(assumption 19): the engine in an execute phase of its channel, the word in that channel's command store at its
cursor, the store long enough to hold it. -/
def State.withFetchWord (s : State) (nbits w : Nat) : State := s.placeAtCursor nbits w

end Sys2Proof.Machine
end

