-- ==== Sys2Proof/WellFormed.lean ====
section
/-! DEFINITION. What is well-formed. An instruction needs no check: the operand types of `Instr` are the operand fields
of 30_encoding.md R81, so every term is an instruction the encoding has. A tune has the conditions W1 to W12 of
70_reset_and_hazards.md R236, and W13 which is not required; each is a check of its own. W14 is about the
frames of a run and stands in Safety.lean as `tuneW14`. Nothing in the machine reads these checks: the block does not validate a tune (R232). -/

namespace Sys2Proof

/-! ### Control flow of one command store -/

/-- The command at index `k`, or none past the end and at an illegal word. -/
def commandAt (code : List Word) (k : Nat) : Option Instr :=
  match code[k]? with
  | some w => decodeWord w
  | none => none

/-- The indices the cursor can have after the command at `k` (R161, R165, R166). -/
def successors (code : List Word) (k : Nat) : List Nat :=
  match commandAt code k with
  | none => []
  | some (.jump target) => [target.toNat]
  | some (.rept _) => [k + 1, k + 2]
  | some _ => [k + 1]

/-- The indices below `n`. -/
def indices (n : Nat) : List Nat := List.range n

/-- The (cursor, active instrument) pairs that can follow a pair. -/
def flowSuccessors (code : List Word) (x : Nat × Nat) : List (Nat × Nat) :=
  match commandAt code x.1 with
  | some (.seti i) => [(x.1 + 1, i.toNat)]
  | _ => (successors code x.1).map fun k => (k, x.2)

/-- The elements of `xs` that are not in `seen`, each once. -/
def newOnes : List (Nat × Nat) → List (Nat × Nat) → List (Nat × Nat)
  | _, [] => []
  | seen, x :: xs => if x ∈ seen then newOnes seen xs else x :: newOnes (x :: seen) xs

/-- `n` rounds of adding what can follow. -/
def flowClosure (code : List Word) : Nat → List (Nat × Nat) → List (Nat × Nat)
  | 0, seen => seen
  | n + 1, seen => flowClosure code n (seen ++ newOnes seen (seen.flatMap (flowSuccessors code)))

/-- The (cursor, active instrument) pairs a channel can reach from index 0 with instrument 0 active (R233). -/
def reachable (ninstr : Nat) (code : List Word) : List (Nat × Nat) :=
  flowClosure code ((code.length + 2) * (ninstr + 1)) [(0, 0)]

/-! ### The conditions of R236 -/

/-- Every word of every store satisfies `p`. -/
def everyCommand (t : Tune) (p : List Word → Instr → Bool) : Bool :=
  t.code.all fun code => code.all fun w =>
    match decodeWord w with
    | some i => p code i
    | none => true

/-- W1: every instrument has `DEN != 0`. -/
def tuneW1 (t : Tune) : Bool := t.instruments.all fun ins => ins.den != 0#8

/-- W2: every `SETI index` has `index < NINSTR`. -/
def tuneW2 (t : Tune) : Bool :=
  everyCommand t fun _ i => match i with
    | .seti index => decide (index.toNat < t.instruments.length)
    | _ => true

/-- W3: every `JUMP target` has `target < CODE_LEN[c]`. -/
def tuneW3 (t : Tune) : Bool :=
  everyCommand t fun code i => match i with
    | .jump target => decide (target.toNat < code.length)
    | _ => true

/-- W4: control never reaches index `CODE_LEN[c]` or beyond. -/
def tuneW4 (t : Tune) : Bool :=
  t.code.all fun code => (reachable t.instruments.length code).all fun x => decide (x.1 < code.length)

/-- The section of a `REPT` at `k` that jumps back to `b` is one of W5 (R239 to R241): `b` does not lie after `k`, no
other `REPT` stands in it, it is entered only at `b`, and no `JUMP` in it leaves it. DESIGN CHOICE (assumption 25): R236
does not say whether a command that no path reaches counts as an entry; here every command of the store counts. -/
def sectionOk (code : List Word) (b k : Nat) : Bool :=
  decide (b ≤ k)
  && (indices code.length).all fun j =>
    if b ≤ j ∧ j < k then
      match commandAt code j with
      | some (.rept _) => false
      | some (.jump target) => decide (b ≤ target.toNat) && decide (target.toNat ≤ k)
      | _ => true
    else if j = k ∨ j = k + 1 then true
    else (successors code j).all fun x => decide (x ≤ b) || decide (k + 1 < x)

/-- W5: every `REPT` has a count of at least 1 and is followed at once by the `JUMP` back to its body. A `REPT` that no path
reaches counts too (assumption 25). -/
def tuneW5 (t : Tune) : Bool :=
  t.code.all fun code => (indices code.length).all fun k =>
    match commandAt code k with
    | some (.rept count) =>
      match commandAt code (k + 1) with
      | some (.jump target) => decide (1 ≤ count.toNat) && sectionOk code target.toNat k
      | _ => false
    | _ => true

/-- The command at `k` is a `BEAT` with `count >= 1`. -/
def isBeat (code : List Word) (k : Nat) : Bool :=
  match commandAt code k with
  | some (.beat count) => decide (1 ≤ count.toNat)
  | _ => false

/-- `n` rounds of removing the indices none of whose successors is left: what is left lies on or leads into a cycle. -/
def peel (code : List Word) : Nat → List Nat → List Nat
  | 0, alive => alive
  | n + 1, alive => peel code n (alive.filter fun k => (successors code k).any fun x => decide (x ∈ alive))

/-- W6: `BEAT_LEN >= 1` and every cycle contains a `BEAT` with `count >= 1`. A cycle that no path reaches
counts too (assumption 25). -/
def tuneW6 (t : Tune) : Bool :=
  decide (1 ≤ t.beatLen.toNat)
  && t.code.all fun code =>
    (peel code code.length ((indices code.length).filter fun k => !isBeat code k)).isEmpty

/-- W7: `1 <= SAMPLE_RATE <= 2^20`. -/
def tuneW7 (t : Tune) : Bool := decide (1 ≤ t.sampleRate.toNat) && decide (t.sampleRate.toNat ≤ 1048576)

/-- W8: `BEAT_LEN * count < 2^31` for every `BEAT count`. -/
def tuneW8 (t : Tune) : Bool :=
  everyCommand t fun _ i => match i with
    | .beat count => decide (t.beatLen.toNat * count.toNat < 2147483648)
    | _ => true

/-- Every pitch up to 107 with the instrument it is used with satisfies `p`. A `NOTE` with no instrument to use, which
only NINSTR = 0 or a faulting `SETI` leaves, asks for nothing. -/
def everyNote (t : Tune) (p : Nat → Instrument → Bool) : Bool :=
  t.code.all fun code => (reachable t.instruments.length code).all fun x =>
    match commandAt code x.1 with
    | some (.note pitch) =>
      if pitch.toNat ≤ Machine.maxPitch then
        match t.instruments[x.2]? with
        | some ins => p pitch.toNat ins
        | none => true
      else true
    | _ => true

/-- W9: `carrierBase * NUM < 2^31` for every instrument and every pitch used with it. -/
def tuneW9 (table : Vector Long 12) (t : Tune) : Bool :=
  everyNote t fun pitch ins => decide (Machine.carrierBase table pitch * ins.num.toNat < 2147483648)

/-- W10: `modBase >= (SAMPLE_RATE + 1) / 2` for every instrument and every pitch used with it. With `DEN = 0`, which W1
refuses, `modBase` is taken as 0 (assumption 25). -/
def tuneW10 (table : Vector Long 12) (t : Tune) : Bool :=
  everyNote t fun pitch ins =>
    decide ((t.sampleRate.toNat + 1) / 2
      ≤ Machine.modBase (Machine.carrierBase table pitch) ins.num.toNat ins.den.toNat)

/-- W11: the times' products with the sample rate are below 2^32. -/
def tuneW11 (t : Tune) : Bool :=
  t.instruments.all fun ins =>
    decide (ins.att.toNat * t.sampleRate.toNat < 4294967296)
    && decide (ins.dec.toNat * t.sampleRate.toNat < 4294967296)
    && decide (ins.rel.toNat * t.sampleRate.toNat < 4294967296)

/-- W12: every word of every store is a legal command and every waveform code is 0 to 4. -/
def tuneW12 (t : Tune) : Bool :=
  (t.code.all fun code => code.all fun w => (decodeWord w).isSome)
  && t.instruments.all fun ins =>
    (Machine.waveformOfCode ins.carwave).isSome && (Machine.waveformOfCode ins.modwave).isSome

/-- W13, not required for well-formedness: no step aliases. With `DEN = 0` or `SAMPLE_RATE = 0`, which W1 and W7 refuse,
the quotient is taken as 0 (assumption 25), so that at `SAMPLE_RATE = 0` every step is 1 here. -/
def tuneW13 (table : Vector Long 12) (t : Tune) : Bool :=
  everyNote t fun pitch ins =>
    decide (Machine.roundDiv (Machine.carrierBase table pitch) t.sampleRate.toNat < 32768)
    && decide (Machine.roundDiv
        (Machine.modBase (Machine.carrierBase table pitch) ins.num.toNat ins.den.toNat) t.sampleRate.toNat < 65536)

/-- The sizes R4 allows: at most 4096 instruments and at most 4096 commands in a store. R4 gives NCHAN no bound, and the
one u16 word that R64 gives it bounds the image, not the tune (assumption 7). -/
def tuneSizes (t : Tune) : Bool :=
  decide (t.instruments.length ≤ 4096) && t.code.all fun code => decide (code.length ≤ 4096)

/-- A well-formed tune (R236): W1 to W12, within the sizes of R4. -/
def Tune.wf (table : Vector Long 12) (t : Tune) : Bool :=
  tuneSizes t && tuneW1 t && tuneW2 t && tuneW3 t && tuneW4 t && tuneW5 t && tuneW6 t && tuneW7 t && tuneW8 t
  && tuneW9 table t && tuneW10 table t && tuneW11 t && tuneW12 t

/-- The constraint on the parameter `FREQ_TABLE` (D14): each value below 2^31. -/
def freqTableOk (table : Vector Long 12) : Bool := table.toList.all fun v => decide (v.toNat < 2147483648)

end Sys2Proof
end

