-- ==== Sys2Proof/Safety.lean ====
section
/-! DEFINITION. The terms in which claims about runs are stated: the invariants of 10_state.md R46, the soundness of a
state, the bound on the amplitude, a frame that executes no command, the exact sums of a frame (W14), and the envelope
of a fresh note as lists of numbers. -/

namespace Sys2Proof.Machine

/-! ### The invariants of R46, channel by channel -/

/-- I2: the cursor is past the last stage, or its stage has a frame left. -/
abbrev Channel.CursorOk (c : Channel) : Prop := ∀ k, c.stage = some k → c.efr.get k ≠ 0#32

/-- I4: both pans are even and at most 256, and one of them is 256. -/
abbrev Channel.PanOk (c : Channel) : Prop :=
  c.panL.toNat % 2 = 0 ∧ c.panR.toNat % 2 = 0 ∧ c.panL.toNat ≤ 256 ∧ c.panR.toNat ≤ 256
    ∧ (c.panL.toNat = 256 ∨ c.panR.toNat = 256)

/-- I5: the active instrument is in the table, or is the one reset selects. -/
abbrev Channel.InstrOk (ninstr : Nat) (c : Channel) : Prop := c.instr = 0#12 ∨ c.instr.toNat < ninstr

/-- I6: the cursor is at most 4097. -/
abbrev Channel.PcOk (c : Channel) : Prop := c.pc.toNat ≤ 4097

/-- A state whose parts fit together: the memory is canonical, the parameters are within R4, the engine is at a channel
that exists, HALTED channels are at reset, and every channel keeps I2, I4, I5 and I6 of R46. -/
structure State.Sound (s : State) : Prop where
  memory : s.mem.wf = true
  instruments : s.params.ninstr ≤ 4096
  stores : ∀ n ∈ s.params.codeLen, n ≤ 4096
  engine : s.busy = true → s.cur < s.ch.length
  halted : s.run = .halted → ∀ c ∈ s.ch, c = Channel.reset
  cursor : ∀ c ∈ s.ch, c.CursorOk
  pan : ∀ c ∈ s.ch, c.PanOk
  instr : ∀ c ∈ s.ch, c.InstrOk s.params.ninstr
  pc : ∀ c ∈ s.ch, c.PcOk

/-! ### Frame counts: I1 and I3 of R46 -/

/-- The frames stage `k` still has, none for a stage the cursor has passed. -/
def Channel.stageFrames (c : Channel) (k : Fin 4) : Nat :=
  if c.ecur.val ≤ k.val then (c.efr.get k).toNat else 0

/-- The sum of `EFR[k]` over `k >= ECUR` (I3). -/
def Channel.framesAhead (c : Channel) : Nat :=
  c.stageFrames 0 + c.stageFrames 1 + c.stageFrames 2 + c.stageFrames 3

/-- The notes of a state are counted as R46 says: I1; I3 for a channel that sounds; the instrument of a note is in the
table; and commands execute only when the note is over (R28). -/
structure State.NotesSound (s : State) : Prop where
  nonneg : ∀ c ∈ s.ch, 0 ≤ c.nfl.toInt
  counted : ∀ c ∈ s.ch, 1 ≤ c.nfl.toInt → c.cstep ≠ 0#16 → (c.framesAhead : Int) = c.nfl.toInt
  tabled : ∀ c ∈ s.ch, 1 ≤ c.nfl.toInt → c.instr.toNat < s.params.ninstr
  between : ∀ e c, s.busy = true → s.phase = .execute e → s.chan = some c → c.nfl.toInt ≤ 0

/-- W8 for every count a `BEAT` can carry: `BEAT_LEN * 4095 < 2^31`. -/
def State.BeatsFit (s : State) : Prop := ∀ bl, s.beatLen = some bl → bl.toNat * 4095 < 2147483648

/-! ### The amplitude stays inside its register (R34) -/

/-- How far the deltas of stage `k` can still move a lane: the delta's magnitude for every frame the stage has, once
for a stage without frames, nothing for a stage that is passed. -/
def Channel.stageReach (c : Channel) (d : Vector Long 4) (k : Fin 4) : Nat :=
  if c.ecur.val ≤ k.val then (d.get k).toInt.natAbs * max 1 (c.efr.get k).toNat else 0

/-- How far the deltas ahead can still move a lane. -/
def Channel.reach (c : Channel) (d : Vector Long 4) : Nat :=
  c.stageReach d 0 + c.stageReach d 1 + c.stageReach d 2 + c.stageReach d 3

/-- Three whole steps of a full-scale envelope at unity pan: 3 * 65535 * 256. -/
def ampLimit : Nat := 50330880

/-- On both lanes the amplitude and all that can still be added to it stay within `ampLimit`. -/
abbrev Channel.AmpOk (c : Channel) : Prop :=
  c.ampL.toInt.natAbs + c.reach c.edl ≤ ampLimit ∧ c.ampR.toInt.natAbs + c.reach c.edr ≤ ampLimit

/-- Every channel's amplitude stays inside its register. -/
def State.AmpSound (s : State) : Prop := ∀ c ∈ s.ch, c.AmpOk

/-! ### A frame in which no channel executes a command -/

/-- The channel has at least two frames of its note left, and renders within the precondition of R148 unless it is
silent. -/
def State.ChannelReady (s : State) (c : Channel) : Prop :=
  2 ≤ c.nfl.toInt ∧
    (c.cstep ≠ 0#16 →
      c.instr.toNat < s.params.ninstr ∧ (s.instrWord c.instr 6).isSome = true ∧
        ∃ k, c.stage = some k ∧ c.efr.get k ≠ 0#32)

/-- What a channel adds to the left lane of a frame: nothing when it is silent (R188). -/
def Channel.leftShare (p : Params) (c : Channel) : Int :=
  if c.cstep = 0#16 then 0 else contribution (c.carrierSample p) c.ampL

/-- What a channel adds to the right lane of a frame. -/
def Channel.rightShare (p : Params) (c : Channel) : Int :=
  if c.cstep = 0#16 then 0 else contribution (c.carrierSample p) c.ampR

/-- The exact sum of all channels' contributions to the left lane of a frame (W14). -/
def State.leftSum (s : State) : Int := (s.ch.map (Channel.leftShare s.params)).sum

/-- The exact sum of all channels' contributions to the right lane of a frame (W14). -/
def State.rightSum (s : State) : Int := (s.ch.map (Channel.rightShare s.params)).sum

/-- W14 for a frame in which no channel executes a command: the exact sums stay in the range of a sample. -/
abbrev State.MixFits (s : State) : Prop :=
  -128 ≤ s.leftSum ∧ s.leftSum ≤ 127 ∧ -128 ≤ s.rightSum ∧ s.rightSum ≤ 127

/-! ### The exact sum of any frame, and W14 (R182, R236) -/

/-- What this step adds to the exact sum of a lane: the contribution of the channel it renders, nothing where it renders
none (R181). -/
def State.shareNow (share : Params → Channel → Int) (s : State) : Int :=
  match s.phase, s.chan with
  | .head, some c => if c.generating then share s.params c else 0
  | _, _ => 0

/-- A frame that has ended: the state, and the exact sums of all contributions to its two lanes. -/
structure FrameEnd where
  state : State
  left : Int
  right : Int
  deriving DecidableEq, Repr

/-- The frame in progress run to its end in at most `n` steps, with the exact sums so far; none where it takes longer or
stops. -/
def State.finishFrame : Nat → State → Int → Int → Option FrameEnd
  | 0, s, l, r => if s.busy then none else some ⟨s, l, r⟩
  | n + 1, s, l, r =>
    if s.busy then
      match step s with
      | .next t => State.finishFrame n t (l + s.shareNow Channel.leftShare) (r + s.shareNow Channel.rightShare)
      | _ => none
    else some ⟨s, l, r⟩

/-- The frame a `PULL` asks for, run to its end in at most `n` steps (R182). -/
def State.frame (n : Nat) (s : State) : Option FrameEnd := s.startFrame.finishFrame n 0 0

/-- The exact sums of a frame stay in the range of a sample. -/
abbrev FrameEnd.Fits (e : FrameEnd) : Prop :=
  -128 ≤ e.left ∧ e.left ≤ 127 ∧ -128 ≤ e.right ∧ e.right ≤ 127

/-- The states between the delivered frames of a run that begins at `s`. -/
inductive State.FramesFrom (s : State) : State → Prop where
  | start : State.FramesFrom s s
  | next {u : State} {n : Nat} {e : FrameEnd} :
    State.FramesFrom s u → u.frame n = some e → e.state.run = .running → State.FramesFrom s e.state

/-- The block with a tune loaded after power-on, and started (R232). Every word of the tune is stored at its place,
without the image of R64, whose NCHAN word holds fewer than 65536 channels: the tune may have any number (R4). -/
def State.launched (p : Params) (t : Tune) : State :=
  ((State.powerOn p 0).loadParts (tuneParts t)).hostMove .start

/-- W14, not required for well-formedness: in every frame of a playing of the tune the exact sum of all channels'
contributions stays in -128 to 127 on both lanes (R236). -/
def tuneW14 (p : Params) (t : Tune) : Prop :=
  ∀ (u : State) (n : Nat) (e : FrameEnd),
    (State.launched p t).FramesFrom u → u.frame n = some e → e.state.run = .running → e.Fits

/-! ### What `BEAT` reads (R63, R164) -/

/-- The words `BEAT` reads are loaded, and have these values: the configuration words, and words 1 to 5 and 8 of record
`i` (R63). -/
structure State.BeatReads (s : State) (i : BitVec 12) (o : BeatOperands) : Prop where
  sampleRate : s.sampleRate = some o.sampleRate
  beatLen : s.beatLen = some o.beatLen
  peak : s.instrWord i 1 = some o.peak
  att : s.instrWord i 2 = some o.att
  dec : s.instrWord i 3 = some o.dec
  sus : s.instrWord i 4 = some o.sus
  rel : s.instrWord i 5 = some o.rel
  modph0 : s.instrWord i 8 = some o.modph0

/-- The execute phase has ended: `ChannelFrame` returns where it was entered after the note's last frame, and goes round
its loop otherwise (R168, R181). Outside an execute phase the engine's place stays (assumption 24). -/
structure State.ExecuteEnded (s t : State) : Prop where
  eager : s.phase = .execute true → t.phase = .chanDone
  entry : s.phase = .execute false → t.phase = .head
  outside : (∀ e, s.phase ≠ .execute e) → t.phase = s.phase

/-! ### A fresh note in numbers (R127, R128, R141, R164) -/

/-- The four stage counts of a note in stage order: attack, decay, sustain, release. -/
def countList (n : StageCounts) : List Nat := [n.attack, n.decay, n.sustain, n.release]

/-- The whole steps of one lane in stage order, as exact numbers: rise to the peak, to the sustain level, nothing, back
to zero (R128). -/
def wholeSteps (peak sus : Word) (pan : BitVec 9) : List Int :=
  [(peak.toNat : Int) * pan.toNat, ((sus.toNat : Int) - peak.toNat) * pan.toNat, 0,
    -((sus.toNat : Int) * pan.toNat)]

/-- The number of leading stages without a frame. -/
def leadingEmpty (ns : List Nat) : Nat := (ns.takeWhile fun n => n == 0).length

/-- The state after a fault of the channel at the engine's place (R204). -/
def State.faultedBy (s : State) (cause : FaultCause) (pc0 : Word) : State :=
  { s with fcause := cause, fchan := s.cur, fpc := pc0, run := .faulted, phase := .idle }

/-- The state with the registers of the engine's channel replaced. -/
def State.withChannel (s : State) (c : Channel) : State := { s with ch := s.ch.set s.cur c }

/-! ### Frames: what a command leaves unchanged -/

/-- Everything outside the engine's channel, the run state, the fault record and the engine's place is unchanged: every
byte of the tune store, the parameters, the output frame, the host's port, every other channel. -/
structure State.OutsideSame (s t : State) : Prop where
  memory : ∀ a, t.mem.read a = s.mem.read a
  params : t.params = s.params
  out : t.out = s.out
  cur : t.cur = s.cur
  port : t.port = s.port
  resetLine : t.resetLine = s.resetLine
  statusLine : t.statusLine = s.statusLine
  sent : t.sent = s.sent
  count : t.ch.length = s.ch.length
  others : ∀ j, j ≠ s.cur → t.ch[j]? = s.ch[j]?

/-- The run state and the fault record are unchanged. -/
structure State.StatusSame (s t : State) : Prop where
  run : t.run = s.run
  fcause : t.fcause = s.fcause
  fchan : t.fchan = s.fchan
  fpc : t.fpc = s.fpc

/-- The engine's channel of `t` is that of `s` but for what `keep` lets differ: `keep c c'` is the old channel with the
registers the command may write taken from the new one. -/
def State.ChannelSame (s t : State) (keep : Channel → Channel → Channel) : Prop :=
  ∃ c c', s.ch[s.cur]? = some c ∧ t.ch[s.cur]? = some c' ∧ c' = keep c c'

/-- `t` is the state after a fault of the command: no channel register changed (R204). -/
def State.FaultTaken (s t : State) : Prop := t.ch = s.ch ∧ t.phase = .idle ∧ t.fresh = s.fresh

/-- Neither RESET nor STATUS is asked for (assumption 3): the step is the host's turn or the engine's. -/
structure State.LinesClear (s : State) : Prop where
  reset : s.resetLine = false
  status : s.statusLine = false

/-- The state is inside `EngineFrame` with no RESET or STATUS asked for, in an execute phase of channel `c`: where a
command is fetched next. -/
structure State.Executing (s : State) (c : Channel) : Prop where
  lines : s.LinesClear
  running : s.run = .running
  phase : ∃ eager, s.phase = .execute eager
  chan : s.ch[s.cur]? = some c

/-- The state is at the head of `ChannelFrame` for channel `c`, with no RESET or STATUS asked for. -/
structure State.AtHead (s : State) (c : Channel) : Prop where
  lines : s.LinesClear
  running : s.run = .running
  phase : s.phase = .head
  chan : s.ch[s.cur]? = some c

end Sys2Proof.Machine
end

