-- ==== Sys2Proof/Certificates/Slice0/Obligations.lean ====
section
/-! DEFINITION. The statements about the model. Each docstring names the rules of spec/ it formalises, or says that it is
derived or the model's own choice. -/

open Sys2Proof Sys2Proof.Machine

/-! ### Encoding (30_encoding.md) -/

/-- Decoding the bytes of any command gives it back with the bytes after it, and each word is the word of at most the
command it decodes to: no bit of an encoding is dropped (30_encoding.md R80 to R85). -/
def Obligations.DecodeInvertsEncode : Prop :=
  (∀ (i : Instr) (rest : List Byte), decode (encodeBytes i ++ rest) = .ok (i, rest)) ∧
  (∀ (w : Word) (i : Instr), decodeWord w = some i ↔ encode i = w)

/-- R82: a word is command X exactly when its masked bits are X's match value. That no word matches two rows follows,
since the decoder gives one command. -/
def Obligations.CommandByMaskAndMatch : Prop :=
  ∀ w : Word,
    ((∃ p, decodeWord w = some (.note p)) ↔ w &&& 0xFF00#16 = 0x0000#16) ∧
    ((∃ a, decodeWord w = some (.seti a)) ↔ w &&& 0xF000#16 = 0x1000#16) ∧
    ((∃ a, decodeWord w = some (.beat a)) ↔ w &&& 0xF000#16 = 0x2000#16) ∧
    ((∃ a, decodeWord w = some (.jump a)) ↔ w &&& 0xF000#16 = 0x3000#16) ∧
    ((∃ a, decodeWord w = some (.rept a)) ↔ w &&& 0xF000#16 = 0x4000#16) ∧
    ((∃ o, decodeWord w = some (.pan o)) ↔ w &&& 0xFF00#16 = 0x5000#16)

/-- R81: the operand of each command as a number, from the word's low bits. -/
def Obligations.OperandAssembly : Prop :=
  ∀ (w : Word) (i : Instr), decodeWord w = some i →
    match i with
    | .note p => pitchValue p = w.toNat % 256 ∧ w.toNat / 256 % 16 = 0
    | .seti a => argValue a = w.toNat % 4096
    | .beat a => argValue a = w.toNat % 4096
    | .jump a => argValue a = w.toNat % 4096
    | .rept a => argValue a = w.toNat % 4096
    | .pan o => w.toNat / 256 % 16 = 0 ∧
        offsetValue o = if w.toNat % 256 < 128 then (w.toNat % 256 : Int) else (w.toNat % 256 : Int) - 256

/-- R83, R206: which words are illegal, and that fetching one raises `IllegalCommand` (code 3) with the index of the
word and has no other effect. -/
def Obligations.IllegalWordsFault : Prop :=
  FaultCause.illegalCommand.code = 3#3 ∧
  (∀ w : Word, decodeWord w = none ↔
    6 ≤ w.toNat / 4096 ∨ ((w.toNat / 4096 = 0 ∨ w.toNat / 4096 = 5) ∧ w.toNat / 256 % 16 ≠ 0)) ∧
  (∀ (s : State) (c : Channel) (w : Word), s.Executing c → c.pc.toNat < s.codeLen s.cur →
    s.codeWord s.cur c.pc = some w → decodeWord w = none →
    step s = .next (s.faultedBy .illegalCommand c.pc))

/-- R89: the worked encodings, and the illegal examples. -/
def Obligations.WorkedEncodings : Prop :=
  decodeWord 0x0030#16 = some (.note 48#8) ∧ decodeWord 0x00FF#16 = some (.note 255#8) ∧
  decodeWord 0x1000#16 = some (.seti 0#12) ∧ decodeWord 0x1005#16 = some (.seti 5#12) ∧
  decodeWord 0x2001#16 = some (.beat 1#12) ∧ decodeWord 0x2FFF#16 = some (.beat 4095#12) ∧
  decodeWord 0x3000#16 = some (.jump 0#12) ∧ decodeWord 0x3011#16 = some (.jump 17#12) ∧
  decodeWord 0x4003#16 = some (.rept 3#12) ∧ decodeWord 0x5000#16 = some (.pan 0#8) ∧
  decodeWord 0x507F#16 = some (.pan (BitVec.ofInt 8 127)) ∧
  decodeWord 0x50FF#16 = some (.pan (BitVec.ofInt 8 (-1))) ∧
  decodeWord 0x5080#16 = some (.pan (BitVec.ofInt 8 (-128))) ∧
  decodeWord 0x0130#16 = none ∧ decodeWord 0x5100#16 = none ∧ decodeWord 0x6000#16 = none ∧
  decodeWord 0xFFFF#16 = none

/-! ### Fetch and step (43_commands.md) -/

/-- A step runs the decoded instruction: when the two bytes at the cursor decode to `i`, the step is `exec i`, with
nothing around it (R160, R168). -/
def Obligations.StepRunsDecodedInstruction : Prop :=
  ∀ (s : State) (c : Channel) (lo hi : Byte) (i : Instr), s.Executing c → c.pc.toNat < s.codeLen s.cur →
    s.mem.read (codeAddr s.cur c.pc.toNat) = some lo → s.mem.read (codeAddr s.cur c.pc.toNat + 1) = some hi →
    decodeWord (hi ++ lo) = some i → step s = exec i s

/-- R205: a fetch at or past the end of the store, an empty store among them, raises `CodeRange` (code 1) with the
offending index, whatever the store holds. -/
def Obligations.FetchPastEndFaults : Prop :=
  FaultCause.codeRange.code = 1#3 ∧
  ∀ (s : State) (c : Channel), s.Executing c → s.codeLen s.cur ≤ c.pc.toNat →
    step s = .next (s.faultedBy .codeRange c.pc)

/-- The model's own `withFetchWord` (assumption 19): the word it places is the instruction the next step runs, in every
state. -/
def Obligations.PlacedWordRunsNext : Prop :=
  ∀ (s : State) (w : Word) (i : Instr), decodeWord w = some i →
    step (s.withFetchWord 16 w.toNat) = exec i (s.withFetchWord 16 w.toNat)

/-! ### Reset (10_state.md R42, 70_reset_and_hazards.md R231) -/

/-- Every register at power-on as R42 has it, for every parameter and every number of channels, and no byte of the tune
store loaded. The second clause is the model's choice (assumption 9), not R42's alone, which leaves the fault or the
refusal of the launch: with a tune store of which no byte is loaded, a command that reads a word of it stops, at the
read. `UnloadedWordStops` says it word by word. -/
def Obligations.PowerOnValues : Prop :=
  (∀ (p : Params) (n : Nat),
    (State.powerOn p n).ch.length = n ∧
    (∀ c ∈ (State.powerOn p n).ch,
      c.pc = 0#16 ∧ c.instr = 0#12 ∧ c.wselc = .sine ∧ c.wselm = .sine ∧ c.nfl = 0#32 ∧ c.cph = 0#16 ∧
      c.mph = 0#16 ∧ c.cstep = 0#16 ∧ c.mstep = 0#16 ∧ c.panL = 256#9 ∧ c.panR = 256#9 ∧ c.ampL = 0#32 ∧
      c.ampR = 0#32 ∧ (∀ k : Fin 4, c.efr.get k = 0#32 ∧ c.edl.get k = 0#32 ∧ c.edr.get k = 0#32) ∧
      c.ecur = 4 ∧ c.loop = 0#12) ∧
    (State.powerOn p n).out = ⟨0#8, 0#8⟩ ∧ (State.powerOn p n).run = .halted ∧
    (State.powerOn p n).fcause = .none ∧ (State.powerOn p n).fchan = 0 ∧ (State.powerOn p n).fpc = 0#16 ∧
    (∀ a, (State.powerOn p n).mem.read a = none)) ∧
  (∀ (s : State) (c : Channel), (∀ a, s.mem.read a = none) → s.ch[s.cur]? = some c →
    (∀ pitch : BitVec 8, pitch.toNat ≤ 107 → c.instr.toNat < s.params.ninstr →
      exec (.note pitch) s = .fault .unloadedTuneWord) ∧
    (∀ index : BitVec 12, index.toNat < s.params.ninstr → exec (.seti index) s = .fault .unloadedTuneWord) ∧
    (∀ count : BitVec 12, c.instr.toNat < s.params.ninstr → exec (.beat count) s = .fault .unloadedTuneWord))

/-- R231: RESET sets every register to its reset value and HALTED, and leaves the tune store as it is; by the host between
frames, or by its line. That RESET has a line, which acts in the middle of a frame and comes before STATUS where both are
asked for, is the model's choice (assumption 3) for a move that R186 allows in any run state. -/
def Obligations.ResetKeepsTuneStore : Prop :=
  ∀ s : State,
    (s.resetLine = true ∨ (s.LinesClear ∧ s.busy = false ∧ ∃ rest, s.port = .reset :: rest)) →
    ∃ t, step s = .next t ∧ t.ch = List.replicate s.ch.length Channel.reset ∧ t.out = ⟨0#8, 0#8⟩ ∧
      t.run = .halted ∧ t.fcause = .none ∧ t.fchan = 0 ∧ t.fpc = 0#16 ∧ t.phase = .idle ∧
      t.mem = s.mem ∧ t.params = s.params

/-! ### The commands: what each does (43_commands.md R162 to R167) -/

/-- R162, R203: `NOTE` in every form: silence above 107, the two faults (codes 2 and 5) in their order, and otherwise the
two rounded steps of the active instrument's ratio, by the formula of R124. At SAMPLE_RATE = 1 with a base of 0, as NUM = 0
gives, that formula yields the step 0 where the prose of R124 and R125 says 1: following the formula is the model's
reading (assumption 30, DEDUCED), no rule of the spec. -/
def Obligations.NoteEffect : Prop :=
  FaultCause.instrRange.code = 2#3 ∧ FaultCause.divideByZero.code = 5#3 ∧
  ∀ (pitch : BitVec 8) (s : State) (c : Channel), s.ch[s.cur]? = some c →
    (107 < pitch.toNat →
      exec (.note pitch) s = .next (s.withChannel { c with cstep := 0#16, mstep := 0#16, pc := c.pc + 1#16 })) ∧
    (pitch.toNat ≤ 107 → s.params.ninstr ≤ c.instr.toNat → s.run = .running →
      exec (.note pitch) s = .next (s.faultedBy .instrRange c.pc)) ∧
    (pitch.toNat ≤ 107 → c.instr.toNat < s.params.ninstr → ∀ (sr : Long) (w : Word),
      s.sampleRate = some sr → s.instrWord c.instr 7 = some w →
      ((w.toNat % 256 = 0 ∨ sr.toNat = 0) → s.run = .running →
        exec (.note pitch) s = .next (s.faultedBy .divideByZero c.pc)) ∧
      (w.toNat % 256 ≠ 0 → sr.toNat ≠ 0 → ∀ base : Nat,
        base = (s.params.freqTable.toList.getD (pitch.toNat % 12) 0#32).toNat / 2 ^ ((107 - pitch.toNat) / 12) →
        exec (.note pitch) s = .next (s.withChannel { c with
          cstep := BitVec.ofInt 16 (((base : Int) - (((sr.toNat + 1) / 2 : Nat) : Int)).tdiv sr.toNat + 1),
          mstep := BitVec.ofInt 16
            ((((base * (w.toNat / 256) / (w.toNat % 256) : Nat) : Int)
              - (((sr.toNat + 1) / 2 : Nat) : Int)).tdiv sr.toNat + 1),
          pc := c.pc + 1#16 })))

/-- R163, R207: `SETI` in every form: the index fault, the reserved-code fault (code 4), and otherwise the instrument and
its two waveform codes latched. -/
def Obligations.SetiEffect : Prop :=
  FaultCause.reservedWaveform.code = 4#3 ∧
  ∀ (index : BitVec 12) (s : State) (c : Channel), s.ch[s.cur]? = some c →
    (s.params.ninstr ≤ index.toNat → s.run = .running →
      exec (.seti index) s = .next (s.faultedBy .instrRange c.pc)) ∧
    (index.toNat < s.params.ninstr → ∀ w : Word, s.instrWord index 0 = some w →
      ((4 < w.toNat % 8 ∨ 4 < w.toNat / 16 % 8) → s.run = .running →
        exec (.seti index) s = .next (s.faultedBy .reservedWaveform c.pc)) ∧
      (w.toNat % 8 ≤ 4 → w.toNat / 16 % 8 ≤ 4 →
        ∃ a b, (waveformCode a).toNat = w.toNat % 8 ∧ (waveformCode b).toNat = w.toNat / 16 % 8 ∧
          exec (.seti index) s = .next (s.withChannel
            { c with instr := index, wselc := a, wselm := b, pc := c.pc + 1#16 })))

/-- R164, R168: `BEAT` of a note whose length fits `NFL` (W8): the frames left, the clamped stage counts, the deltas, the
leading empty stages' whole steps applied once, the phases reset exactly when both lanes are zero, the execute phase
ended (R181); and the index fault. The words read are 1 to 5 and 8 of the record (R63). That `BEAT` outside an execute
phase has its effect and leaves the engine's place is the model's choice (assumption 24), no rule of the spec. -/
def Obligations.BeatEffect : Prop :=
  ∀ (count : BitVec 12) (s : State) (c : Channel), s.ch[s.cur]? = some c →
    (s.params.ninstr ≤ c.instr.toNat → s.run = .running →
      exec (.beat count) s = .next (s.faultedBy .instrRange c.pc)) ∧
    (c.instr.toNat < s.params.ninstr → ∀ o : BeatOperands, s.BeatReads c.instr o →
      ∀ (len fa fd fr : Nat), len = o.beatLen.toNat * count.toNat → len < 2147483648 →
      fa = min (o.att.toNat * o.sampleRate.toNat / 4096) len →
      fd = min (o.dec.toNat * o.sampleRate.toNat / 4096) (len - fa) →
      fr = min (o.rel.toNat * o.sampleRate.toNat / 4096) (len - fa - fd) →
      ∃ (c' : Channel) (t : State),
        exec (.beat count) s = .next t ∧ s.ExecuteEnded t ∧ t = { s.withChannel c' with phase := t.phase } ∧
        c'.nfl.toInt = len ∧
        c'.efr.toList.map BitVec.toNat = [fa, fd, len - fa - fd - fr, fr] ∧
        c'.edl.toList.map BitVec.toInt
          = List.zipWith (fun t n => if 0 < n then t.tdiv n else t) (wholeSteps o.peak o.sus c.panL)
              [fa, fd, len - fa - fd - fr, fr] ∧
        c'.edr.toList.map BitVec.toInt
          = List.zipWith (fun t n => if 0 < n then t.tdiv n else t) (wholeSteps o.peak o.sus c.panR)
              [fa, fd, len - fa - fd - fr, fr] ∧
        c'.ecur.val = leadingEmpty [fa, fd, len - fa - fd - fr, fr] ∧
        c'.ampL.toInt = ((wholeSteps o.peak o.sus c.panL).take c'.ecur.val).sum ∧
        c'.ampR.toInt = ((wholeSteps o.peak o.sus c.panR).take c'.ecur.val).sum ∧
        c'.cph = (if c'.ampL = 0#32 ∧ c'.ampR = 0#32 then 0#16 else c.cph) ∧
        c'.mph = (if c'.ampL = 0#32 ∧ c'.ampR = 0#32 then o.modph0 else c.mph) ∧
        c'.pc = c.pc + 1#16 ∧
        c'.instr = c.instr ∧ c'.wselc = c.wselc ∧ c'.wselm = c.wselm ∧ c'.cstep = c.cstep ∧
        c'.mstep = c.mstep ∧ c'.panL = c.panL ∧ c'.panR = c.panR ∧ c'.loop = c.loop)

/-- The model's treatment of U11 (assumptions 12 and 13): a `BEAT` whose length does not fit `NFL` completes too. `NFL`
takes the next free value, and so does a stage count that does not fit its register; five free values are used up;
everything else is as R164 says: the counts that fit, the deltas, every stage passed empty and its delta added once, the
phases reset exactly when both lanes are zero, the other registers kept, the execute phase ended (outside one the
engine's place stays: assumption 24). Only for the length of
a stage with a free count does the place where the cursor stops depend on a free value. -/
def Obligations.LongBeatCompletes : Prop :=
  ∀ (count : BitVec 12) (s : State) (c : Channel) (o : BeatOperands), s.ch[s.cur]? = some c →
    c.instr.toNat < s.params.ninstr → s.BeatReads c.instr o →
    ∀ (len fa fd fr : Nat), len = o.beatLen.toNat * count.toNat → 2147483648 ≤ len →
    fa = min (o.att.toNat * o.sampleRate.toNat / 4096) len →
    fd = min (o.dec.toNat * o.sampleRate.toNat / 4096) (len - fa) →
    fr = min (o.rel.toNat * o.sampleRate.toNat / 4096) (len - fa - fd) →
    ∃ (c' : Channel) (t : State),
      exec (.beat count) s = .next t ∧ s.ExecuteEnded t ∧
      t = { s.withChannel c' with phase := t.phase, fresh := s.fresh + 5 } ∧
      c'.nfl = Config.freeLong s.fresh ∧
      (∀ (k : Fin 4) (n : Nat), [fa, fd, len - fa - fd - fr, fr][k.val]? = some n →
        c'.efr.get k
          = if n < 4294967296 then BitVec.ofNat 32 n else Config.freeLong (s.fresh + 1 + k.val)) ∧
      c'.edl.toList.map BitVec.toInt
        = List.zipWith (fun t n => if 0 < n then t.tdiv n else t) (wholeSteps o.peak o.sus c.panL)
            [fa, fd, len - fa - fd - fr, fr] ∧
      c'.edr.toList.map BitVec.toInt
        = List.zipWith (fun t n => if 0 < n then t.tdiv n else t) (wholeSteps o.peak o.sus c.panR)
            [fa, fd, len - fa - fd - fr, fr] ∧
      c'.CursorOk ∧ (∀ k : Fin 4, k.val < c'.ecur.val → c'.efr.get k = 0#32) ∧
      c'.ampL.toInt = ((c'.edl.toList.map BitVec.toInt).take c'.ecur.val).sum ∧
      c'.ampR.toInt = ((c'.edr.toList.map BitVec.toInt).take c'.ecur.val).sum ∧
      c'.cph = (if c'.ampL = 0#32 ∧ c'.ampR = 0#32 then 0#16 else c.cph) ∧
      c'.mph = (if c'.ampL = 0#32 ∧ c'.ampR = 0#32 then o.modph0 else c.mph) ∧
      c'.pc = c.pc + 1#16 ∧
      c'.instr = c.instr ∧ c'.wselc = c.wselc ∧ c'.wselm = c.wselm ∧ c'.cstep = c.cstep ∧
      c'.mstep = c.mstep ∧ c'.panL = c.panL ∧ c'.panR = c.panR ∧ c'.loop = c.loop

/-- R165: `JUMP` sets the cursor to its target and does nothing else. -/
def Obligations.JumpEffect : Prop :=
  ∀ (target : BitVec 12) (s : State) (c : Channel), s.ch[s.cur]? = some c →
    exec (.jump target) s = .next (s.withChannel { c with pc := BitVec.ofNat 16 target.toNat })

/-- R166: `REPT` in its three cases. -/
def Obligations.ReptEffect : Prop :=
  ∀ (count : BitVec 12) (s : State) (c : Channel), s.ch[s.cur]? = some c →
    (c.loop = 0#12 →
      exec (.rept count) s = .next (s.withChannel { c with loop := count, pc := c.pc + 1#16 })) ∧
    (c.loop = 1#12 →
      exec (.rept count) s = .next (s.withChannel { c with loop := 0#12, pc := c.pc + 2#16 })) ∧
    (2 ≤ c.loop.toNat →
      exec (.rept count) s = .next (s.withChannel { c with
        loop := BitVec.ofNat 12 (c.loop.toNat - 1), pc := c.pc + 1#16 }))

/-- R167: `PAN` sets the pan pair from the signed offset; both values stay in 0 to 256. -/
def Obligations.PanEffect : Prop :=
  ∀ (offset : BitVec 8) (s : State) (c : Channel), s.ch[s.cur]? = some c →
    ∃ c' : Channel, exec (.pan offset) s = .next (s.withChannel c') ∧
      (offset.toInt ≤ 0 → c'.panL.toNat = 256 ∧ (c'.panR.toNat : Int) = 256 + offset.toInt * 2) ∧
      (0 < offset.toInt → (c'.panL.toNat : Int) = 256 - offset.toInt * 2 - 2 ∧ c'.panR.toNat = 256) ∧
      c' = { c with panL := c'.panL, panR := c'.panR, pc := c.pc + 1#16 }

/-- R169, with R166 and R165: the repeat idiom `body; REPT N; JUMP body` of one channel, `N >= 1`. The states `st 0` to
`st N` are the visits of the `REPT`, each after a run of the body; between two visits nothing is asked but that the
cursor is at the `REPT` again and that the body left `LOOP` as the `JUMP` handed it over. With `LOOP = 0` at the first
visit, each of the first `N` visits takes the `JUMP` back to the body in two steps, with `LOOP` at `N`, `N - 1`, ..., `1`,
and visit `N + 1` skips the `JUMP` and leaves `LOOP = 0`: the body runs `N + 1` times. Nothing but `LOOP` and the cursor
changes in those steps. -/
def Obligations.RepeatIdiomRunsBodyAgain : Prop :=
  ∀ (count body : BitVec 12) (pc0 : Word) (st : Nat → State) (c : Nat → Channel),
    1 ≤ count.toNat → (c 0).loop = 0#12 →
    (∀ j, j ≤ count.toNat →
      (st j).Executing (c j) ∧ (c j).pc = pc0 ∧ pc0.toNat + 1 < (st j).codeLen (st j).cur ∧
      (st j).codeWord (st j).cur pc0 = some (encode (.rept count)) ∧
      (st j).codeWord (st j).cur (pc0 + 1#16) = some (encode (.jump body))) →
    (∀ j, j < count.toNat → ∀ (u : State) (v : Channel), core.run 2 (st j) = .next u → u.ch[u.cur]? = some v →
      (c (j + 1)).loop = v.loop) →
    (∀ j, j < count.toNat →
      core.run 2 (st j) = .next ((st j).withChannel { c j with
        loop := BitVec.ofNat 12 (count.toNat - j), pc := BitVec.ofNat 16 body.toNat })) ∧
    core.run 1 (st count.toNat) = .next ((st count.toNat).withChannel { c count.toNat with
      loop := 0#12, pc := pc0 + 2#16 })

/-! ### The commands: what each leaves unchanged -/

/-- The frame of `JUMP`, `REPT` and `PAN` (R165 to R167): nothing but the registers they name, in any state. -/
def Obligations.ControlAndPanFrame : Prop :=
  ∀ (s t : State),
    (∀ target, exec (.jump target) s = .next t →
      s.OutsideSame t ∧ s.StatusSame t ∧ t.phase = s.phase ∧ t.fresh = s.fresh ∧
      s.ChannelSame t fun c c' => { c with pc := c'.pc }) ∧
    (∀ count, exec (.rept count) s = .next t →
      s.OutsideSame t ∧ s.StatusSame t ∧ t.phase = s.phase ∧ t.fresh = s.fresh ∧
      s.ChannelSame t fun c c' => { c with pc := c'.pc, loop := c'.loop }) ∧
    (∀ offset, exec (.pan offset) s = .next t →
      s.OutsideSame t ∧ s.StatusSame t ∧ t.phase = s.phase ∧ t.fresh = s.fresh ∧
      s.ChannelSame t fun c c' => { c with pc := c'.pc, panL := c'.panL, panR := c'.panR })

/-- The frame of `NOTE` and `SETI` (R162, R163): either nothing but the registers they name, or a fault with no channel
register changed. -/
def Obligations.NoteAndSetiFrame : Prop :=
  ∀ (s t : State),
    (∀ pitch, exec (.note pitch) s = .next t →
      s.OutsideSame t ∧
      ((s.StatusSame t ∧ t.phase = s.phase ∧ t.fresh = s.fresh ∧
          s.ChannelSame t fun c c' => { c with pc := c'.pc, cstep := c'.cstep, mstep := c'.mstep }) ∨
        s.FaultTaken t)) ∧
    (∀ index, exec (.seti index) s = .next t →
      s.OutsideSame t ∧
      ((s.StatusSame t ∧ t.phase = s.phase ∧ t.fresh = s.fresh ∧
          s.ChannelSame t fun c c' =>
            { c with pc := c'.pc, instr := c'.instr, wselc := c'.wselc, wselm := c'.wselm }) ∨
        s.FaultTaken t))

/-- The frame of `BEAT` (R164): steps, instrument, waveforms, pan and loop stay; so does everything outside the channel
but the engine's place and the count of free values; or a fault with no channel register changed. That the engine's place
stays outside an execute phase is the model's choice (assumption 24). -/
def Obligations.BeatFrame : Prop :=
  ∀ (s t : State) (count : BitVec 12), exec (.beat count) s = .next t →
    s.OutsideSame t ∧
    ((s.StatusSame t ∧ s.ExecuteEnded t ∧
        s.ChannelSame t fun c c' =>
          { c with
            pc := c'.pc, nfl := c'.nfl, ampL := c'.ampL, ampR := c'.ampR, efr := c'.efr, edl := c'.edl,
            edr := c'.edr, ecur := c'.ecur, cph := c'.cph, mph := c'.mph }) ∨
      s.FaultTaken t)

/-! ### Oscillators (40_oscillators.md) -/

/-- R105, R107, R108: square, triangle and sawtooth as numbers, whatever the parameters. -/
def Obligations.FixedWaveforms : Prop :=
  ∀ (p : Params) (ph : Word),
    (osc p .square ph).toInt = (if 0 ≤ ph.toInt then 32767 else -32768) ∧
    (osc p .triangle ph).toInt = 2 * (if 0 ≤ ph.toInt then ph.toInt else -ph.toInt - 1) - 32768 ∧
    osc p .triangle (~~~ph) = osc p .triangle ph ∧
    (osc p .saw ph).toInt = ph.toInt

/-- What R103 says of a sine, of the reference definition R104: odd under the fold, non-negative on the non-negative
half and negative on the other, the extremes at the quarter points, and the corner values of R104. -/
def Obligations.ReferenceSineShape : Prop :=
  (∀ ph : Word, oscSineReference (~~~ph) = ~~~(oscSineReference ph) ∧
    (0 ≤ ph.toInt → 0 ≤ (oscSineReference ph).toInt) ∧ (ph.toInt < 0 → (oscSineReference ph).toInt < 0)) ∧
  (oscSineReference 0#16).toInt = 0 ∧ (oscSineReference 0xFFFF#16).toInt = -1 ∧
  (oscSineReference 16384#16).toInt = 32767 ∧ (oscSineReference 49152#16).toInt = -32768 ∧
  (oscSineReference 32767#16).toInt = 3 ∧ (oscSineReference 32768#16).toInt = -4 ∧
  (oscSineReference 8192#16).toInt = 23139

/-- R110: the reference noise is the polynomial `n * (n * n * 15731 + 789221) + 1376312589`, and computing it modulo
2^16 throughout gives the same result; its range, and its corner values. -/
def Obligations.ReferenceNoisePolynomial : Prop :=
  ∀ ph : Word,
    (oscNoiseReference ph).toNat
      = (ph.toNat * (ph.toNat * ph.toNat * 15731 + 789221) + 1376312589) % 65536 ∧
    oscNoiseReference ph = ph * (ph * ph * 15731#16 + 789221#16) + 1376312589#16 ∧
    -32767 ≤ (oscNoiseReference ph).toInt ∧ (oscNoiseReference ph).toInt ≤ 32767 ∧
    (oscNoiseReference 0#16).toInt = -8947 ∧ (oscNoiseReference 1#16).toInt = 9573 ∧
    (oscNoiseReference 0xFFFF#16).toInt = -27467

/-! ### Derived values (41_instrument.md) -/

/-- R123: octave and index of a pitch, and the base as the top octave's value halved once for each octave. -/
def Obligations.OctaveAndIndex : Prop :=
  ∀ (p : Nat) (table : Vector Long 12), p ≤ 107 →
    octaveOf p ≤ 8 ∧ tableIndex p = p % 12 ∧ octaveOf p + p / 12 = 8 ∧
    carrierBase table p = (table.toList.getD (p % 12) 0#32).toNat / 2 ^ (8 - p / 12)

/-- R124: the rounding division by its formula; it is `b / sr` rounded to the nearest integer, halves up, from half the
rate on, and 1 below it under U4's condition `-sr < b - (sr + 1) / 2`. That condition leaves out `sr = 1`, `b = 0` alone,
where R124's prose says 1 and its formula gives 0: the model follows the formula (assumption 30). -/
def Obligations.RoundDivRoundsToNearest : Prop :=
  (∀ b sr : Int, 1 ≤ sr →
    roundDiv b sr = (b - (sr + 1) / 2).tdiv sr + 1 ∧
    ((sr + 1) / 2 ≤ b → roundDiv b sr = (b + sr / 2) / sr) ∧
    (0 ≤ b → b < (sr + 1) / 2 → -sr < b - (sr + 1) / 2 → roundDiv b sr = 1) ∧
    (0 ≤ b → b < (sr + 1) / 2 → 2 ≤ sr → -sr < b - (sr + 1) / 2)) ∧
  roundDiv 0 1 = 0

/-- R126: the reference values of `PitchToSteps` with the default table, and those of the two other ratios. -/
def Obligations.ReferenceSteps : Prop :=
  ([0, 11, 12, 48, 57, 69, 95, 96, 107].map fun p =>
      (carrierBase Config.defaultFreqTable p,
        [8000, 44100, 48000].map fun sr => (pitchToSteps Config.defaultFreqTable sr 1 1 p).map fun x => x.1.toNat))
    = [(1071618, [some 134, some 24, some 22]), (2022946, [some 253, some 46, some 42]),
       (2143236, [some 268, some 49, some 45]), (17145893, [some 2143, some 389, some 357]),
       (28835840, [some 3604, some 654, some 601]), (57671680, [some 7209, some 1308, some 1201]),
       (258937088, [some 32367, some 5872, some 5395]), (274334289, [some 34292, some 6221, some 5715]),
       (517874176, [some 64734, some 11743, some 10789])] ∧
  ([0, 11, 12, 48, 57, 69, 95, 96, 107].all fun p => [8000, 44100, 48000].all fun sr =>
      (pitchToSteps Config.defaultFreqTable sr 1 1 p).all fun x => x.1 == x.2) = true ∧
  modBase 28835840 7 2 = 100925440 ∧ modBase 517874176 255 1 = 132057914880 ∧
  roundDiv 132057914880 44100 = 2994511 ∧
  pitchToSteps Config.defaultFreqTable 44100 7 2 57 = some (654#16, 2289#16) ∧
  pitchToSteps Config.defaultFreqTable 44100 255 1 107 = some (11743#16, 45391#16)

/-- R127: the stage counts, in order clamped to what is left; they sum to the note's length, and where attack and decay
fit, they are the unclamped ones. -/
def Obligations.StageCountsSumToLength : Prop :=
  ∀ (sr : Nat) (att dec rel : Word) (len : Nat) (n : StageCounts), n = stageCounts sr att dec rel len →
    n.attack = min (att.toNat * sr / 4096) len ∧
    n.decay = min (dec.toNat * sr / 4096) (len - n.attack) ∧
    n.release = min (rel.toNat * sr / 4096) (len - n.attack - n.decay) ∧
    n.attack + n.decay + n.sustain + n.release = len ∧
    (att.toNat * sr / 4096 + dec.toNat * sr / 4096 ≤ len →
      n.attack = att.toNat * sr / 4096 ∧ n.decay = dec.toNat * sr / 4096)

/-- R129 P2 and P3: a stage of `n >= 1` frames moves the amplitude by less than `n` units short of its whole step and
never beyond it; a stage of no frames moves it by exactly the whole step. -/
def Obligations.StageDeltaFallsShort : Prop :=
  ∀ (total : Int) (n : Nat),
    (1 ≤ n → (total - n * stageDelta total n).natAbs < n ∧
      (n * stageDelta total n).natAbs ≤ total.natAbs) ∧
    stageDelta total 0 = total

/-! ### The per-frame datapath (42_envelope_wavegen.md) -/

/-- R141: `SkipZeroStages` at a stage with a frame left, or past the last, does nothing; at an empty stage it adds both
lanes' deltas once (exactly, where the sum is an s32), moves the cursor on, and repeats. It ends at a stage with a frame left or past the last; every stage
it passed was empty; nothing but the cursor and the amplitudes changes, and no frame is lost. -/
def Obligations.SkipZeroStagesPassesEmptyStages : Prop :=
  (∀ a d : Long, -2147483648 ≤ a.toInt + d.toInt → a.toInt + d.toInt ≤ 2147483647 →
    (addAmplitude a d).toInt = a.toInt + d.toInt) ∧
  ∀ c : Channel,
    (c.ecur = 4 → c.skipZeroStages = c) ∧
    (∀ k : Fin 4, c.ecur.val = k.val → c.efr.get k ≠ 0#32 → c.skipZeroStages = c) ∧
    (∀ k : Fin 4, c.ecur.val = k.val → c.efr.get k = 0#32 →
      c.skipZeroStages = Channel.skipZeroStages { c with
        ampL := addAmplitude c.ampL (c.edl.get k), ampR := addAmplitude c.ampR (c.edr.get k),
        ecur := k.succ }) ∧
    c.skipZeroStages.CursorOk ∧ c.ecur ≤ c.skipZeroStages.ecur ∧
    (∀ k : Fin 4, c.ecur.val ≤ k.val → k.val < c.skipZeroStages.ecur.val → c.efr.get k = 0#32) ∧
    c.skipZeroStages = { c with
      ecur := c.skipZeroStages.ecur, ampL := c.skipZeroStages.ampL, ampR := c.skipZeroStages.ampR } ∧
    c.skipZeroStages.framesAhead = c.framesAhead

/-- R143 and R144: the range of the modulator value and of the modulated increment, and their corner cases. -/
def Obligations.ModulationRanges : Prop :=
  (∀ (m : Int) (modamp : Word), -32768 ≤ m → m ≤ 32767 →
    -2048 ≤ modValue m modamp ∧ modValue m modamp ≤ 2047 ∧ modValue m 0#16 = 0) ∧
  (∀ (cstep : Word) (mv : Int), -2048 ≤ mv → mv ≤ 2047 →
    0 ≤ modulatedInc cstep mv ∧ modulatedInc cstep mv ≤ 131038 ∧
    modulatedInc cstep mv = cstep.toNat * (mv + 2048) / 2048) ∧
  (∀ cstep : Word, modulatedInc cstep 0 = cstep.toNat ∧ modulatedInc cstep (-2048) = 0)

/-- R146: the contribution of a lane is the floor formula, and lies in -128 to 127 for an amplitude between 0 and full
scale at unity pan. -/
def Obligations.ContributionRange : Prop :=
  ∀ (cv : Int) (amp : Long), -32768 ≤ cv → cv ≤ 32767 →
    contribution cv amp = cv * (amp.toInt / 512) / 8388608 ∧
    (0 ≤ amp.toInt → amp.toInt ≤ 16776960 → -128 ≤ contribution cv amp ∧ contribution cv amp ≤ 127)

/-- R147: the mixing adder wraps modulo 2^8, the order of the additions does not matter, and a sum in range is exact. -/
def Obligations.MixWrapsModulo256 : Prop :=
  ∀ (lane : Byte) (v w : Int),
    (outAdd lane v).toInt = (lane.toInt + v + 128) % 256 - 128 ∧
    outAdd (outAdd lane v) w = outAdd (outAdd lane w) v ∧
    (-128 ≤ lane.toInt + v → lane.toInt + v ≤ 127 → (outAdd lane v).toInt = lane.toInt + v)

/-- R148 and R142: a frame of a channel that sounds, `MODAMP` being word 6 of its record (R63). The output gets the carrier's value at the phase and the amplitude
before the frame; both phases advance; the active stage is counted down and its delta added; after the stage's last frame
the cursor moves on and `SkipZeroStages` follows. Around it (R181) `NFL` is counted, and the last frame of the note enters
`Execute` at once. -/
def Obligations.SoundingFrame : Prop :=
  ∀ (s : State) (c : Channel) (k : Fin 4) (ma : Word) (cv mv : Int),
    s.AtHead c → 1 ≤ c.nfl.toInt → c.cstep ≠ 0#16 → c.stage = some k → c.efr.get k ≠ 0#32 →
    c.instr.toNat < s.params.ninstr → s.instrWord c.instr 6 = some ma →
    cv = (osc s.params c.wselc c.cph).toInt →
    mv = (osc s.params c.wselm c.mph).toInt * ma.toNat / 1048576 →
    ∃ c' : Channel,
      step s = .next { s.withChannel c' with
        out := ⟨BitVec.ofInt 8 (s.out.l.toInt + cv * (c.ampL.toInt / 512) / 8388608),
          BitVec.ofInt 8 (s.out.r.toInt + cv * (c.ampR.toInt / 512) / 8388608)⟩,
        phase := if c.nfl.toInt = 1 then .execute true else .chanDone } ∧
      c'.nfl.toInt = c.nfl.toInt - 1 ∧
      (c'.cph.toNat : Int) = (c.cph.toNat + c.cstep.toNat * (mv + 2048) / 2048) % 65536 ∧
      c'.mph.toNat = (c.mph.toNat + c.mstep.toNat) % 65536 ∧
      (c'.efr.get k).toNat = (c.efr.get k).toNat - 1 ∧
      (∀ j : Fin 4, j ≠ k → c'.efr.get j = c.efr.get j) ∧
      (2 ≤ (c.efr.get k).toNat →
        c'.ecur = c.ecur ∧ c'.ampL = addAmplitude c.ampL (c.edl.get k) ∧
        c'.ampR = addAmplitude c.ampR (c.edr.get k)) ∧
      ((c.efr.get k).toNat = 1 →
        ∀ u : Channel, u = Channel.skipZeroStages { c with
            ampL := addAmplitude c.ampL (c.edl.get k), ampR := addAmplitude c.ampR (c.edr.get k),
            efr := c'.efr, ecur := k.succ } →
          c'.ecur = u.ecur ∧ c'.ampL = u.ampL ∧ c'.ampR = u.ampR) ∧
      c' = { c with
        nfl := c'.nfl, cph := c'.cph, mph := c'.mph, efr := c'.efr, ecur := c'.ecur, ampL := c'.ampL,
        ampR := c'.ampR }

/-- R181 and R188: a frame of a silent channel changes only `NFL` and the engine's place; a channel with no frames left
goes to its execute phase and nothing else happens. -/
def Obligations.SilentFrameAndExecuteEntry : Prop :=
  ∀ (s : State) (c : Channel), s.AtHead c →
    (1 ≤ c.nfl.toInt → c.cstep = 0#16 →
      step s = .next { s.withChannel { c with nfl := BitVec.ofInt 32 (c.nfl.toInt - 1) } with
        phase := if c.nfl.toInt = 1 then .execute true else .chanDone }) ∧
    (c.nfl.toInt ≤ 0 → step s = .next { s with phase := .execute false })

/-! ### The engine's frame and the host (44_frame_engine.md) -/

/-- R182 and R183: from a channel that is done to the next one up, and after the last one the frame is delivered. -/
def Obligations.ChannelsInAscendingOrder : Prop :=
  ∀ s : State, s.LinesClear → s.run = .running → s.phase = .chanDone →
    (s.cur + 1 < s.ch.length → step s = .next { s with cur := s.cur + 1, phase := .head }) ∧
    (s.ch.length ≤ s.cur + 1 →
      step s = .next { s with sent := s.sent ++ [.frame s.out], phase := .idle, cur := 0 })

/-- The host's moves between frames: what `START`, `PULL` and `STATUS` do where R186 allows them, and that a `LOAD` outside
HALTED is refused (R74). That a `START` outside HALTED and a `PULL` outside RUNNING are dropped is the model's reading
(assumption 4, DEDUCED), no rule of the spec: R186 says only that they are not allowed, and of a `PULL` in FAULTED that it
delivers nothing. -/
def Obligations.HostMovesObeyRunState : Prop :=
  ∀ (s : State) (rest : List HostMove), s.LinesClear → s.busy = false →
    (s.port = .start :: rest →
      step s = .next (if s.run = .halted then { s with port := rest, run := .running, phase := .idle, cur := 0 }
        else { s with port := rest })) ∧
    (s.port = .pull :: rest → s.run = .running → s.ch ≠ [] →
      step s = .next { s with port := rest, out := ⟨0#8, 0#8⟩, cur := 0, phase := .head }) ∧
    (s.port = .pull :: rest → s.run = .running → s.ch = [] →
      step s = .next { s with
        port := rest, out := ⟨0#8, 0#8⟩, sent := s.sent ++ [.frame ⟨0#8, 0#8⟩], phase := .idle, cur := 0 }) ∧
    (s.port = .pull :: rest → s.run ≠ .running → step s = .next { s with port := rest }) ∧
    (s.port = .status :: rest →
      step s = .next { s with
        port := rest, sent := s.sent ++ [.status s.run s.fcause s.fchan s.fpc] }) ∧
    (∀ item, s.port = .load item :: rest → s.run ≠ .halted → step s = .next { s with port := rest }) ∧
    (s.port = [] → step s = .next s)

/-- R182, R181, R147: one frame in which no channel executes a command, from the request to the delivery. The delivered
sample of a lane is the sum, modulo 2^8, of what all sounding channels contribute; every note has one frame less; and
where the exact sums fit a sample they are the two lanes of the delivered frame. -/
def Obligations.FrameDeliversWrappedSum : Prop :=
  ∀ s : State, s.LinesClear → s.run = .running → s.phase = .idle → s.port = [.pull] →
    (∀ c ∈ s.ch, s.ChannelReady c) →
    ∃ (t : State) (f : Frame), core.run (1 + 2 * s.ch.length) s = .next t ∧ t.sent = s.sent ++ [.frame f] ∧
      f = ⟨BitVec.ofInt 8 s.leftSum, BitVec.ofInt 8 s.rightSum⟩ ∧
      (s.MixFits → f.l.toInt = s.leftSum ∧ f.r.toInt = s.rightSum) ∧
      t.run = .running ∧ t.phase = .idle ∧ t.port = [] ∧ t.mem = s.mem ∧ t.ch.length = s.ch.length ∧
      (∀ (j : Nat) (c : Channel), s.ch[j]? = some c →
        ∃ c', t.ch[j]? = some c' ∧ c'.nfl.toInt = c.nfl.toInt - 1 ∧ c'.pc = c.pc)

/-- R185: a buffer of `n` slots holds frame `i` at slots `2 i` and `2 i + 1`; an odd last slot is 0 and asks for no
frame. -/
def Obligations.BufferHoldsInterleavedFrames : Prop :=
  ∀ (n : Nat) (fs : List Frame), pullsFor n ≤ fs.length →
    (generateMoves n).length = n / 2 ∧ (fillBuffer n fs).length = n ∧
    (∀ (i : Nat) (f : Frame), i < n / 2 → fs[i]? = some f →
      (fillBuffer n fs)[2 * i]? = some f.l ∧ (fillBuffer n fs)[2 * i + 1]? = some f.r) ∧
    (n % 2 = 1 → (fillBuffer n fs)[n - 1]? = some 0#8)

/-! ### Faults and hangs (60_exceptions.md) -/

/-- R204 and R212: in FAULTED nothing executes and no frame is delivered; the record, the channels and the tune store
stay; only RESET leaves it. -/
def Obligations.FaultedUntilReset : Prop :=
  ∀ (s t : State), s.run = .faulted → s.resetLine = false → (∀ rest, s.port ≠ .reset :: rest) →
    step s = .next t →
    t.run = .faulted ∧ t.fcause = s.fcause ∧ t.fchan = s.fchan ∧ t.fpc = s.fpc ∧ t.ch = s.ch ∧
      t.mem = s.mem ∧ t.params = s.params ∧ framesOf t.sent = framesOf s.sent

/-- R209: a `JUMP` to itself hangs: however many steps are taken, no frame is delivered, no fault is recorded and `RUN`
stays RUNNING, since the state stays as it is. -/
def Obligations.JumpToItselfHangs : Prop :=
  ∀ (s : State) (c : Channel) (target : BitVec 12) (n : Nat), s.Executing c →
    c.pc = BitVec.ofNat 16 target.toNat → c.pc.toNat < s.codeLen s.cur →
    s.codeWord s.cur c.pc = some (encode (.jump target)) → core.run n s = .next s

/-! ### The whole machine -/

/-- R74, R61: the tune store and the parameters change only in HALTED: no command, no frame and no host move writes them
otherwise. -/
def Obligations.TuneStoreLockedWhileRunning : Prop :=
  ∀ s t : State, s.run ≠ .halted → step s = .next t → t.mem = s.mem ∧ t.params = s.params

/-- R181, R161: a step inside `EngineFrame` touches one channel's registers only, and the output frame only where it renders
a frame of a channel that sounds: not at the head of a channel that is silent or has no frame left, and at no other
place. -/
def Obligations.ChannelsAreIsolated : Prop :=
  ∀ s t : State, s.LinesClear → s.busy = true → step s = .next t →
    t.ch.length = s.ch.length ∧ (∀ j, j ≠ s.cur → t.ch[j]? = s.ch[j]?) ∧ t.port = s.port ∧
    t.mem = s.mem ∧ t.params = s.params ∧ (s.phase ≠ .head → t.out = s.out) ∧
    (∀ c : Channel, s.ch[s.cur]? = some c → c.cstep = 0#16 ∨ c.nfl.toInt ≤ 0 → t.out = s.out) ∧
    (s.phase ≠ .chanDone → t.sent = s.sent ∧ t.cur = s.cur)

/-- Every step keeps a state sound: the memory canonical, the parameters in range, HALTED channels at reset, and I2, I4,
I5 and I6 of R46, from every sound state. -/
def Obligations.StepKeepsSoundness : Prop :=
  ∀ s t : State, s.Sound → step s = .next t → t.Sound

/-- Every step keeps I1 and I3 of R46, under W8 for every count a `BEAT` can carry. -/
def Obligations.StepKeepsFrameCounts : Prop :=
  ∀ s t : State, s.Sound → s.NotesSound → s.BeatsFit → step s = .next t → t.NotesSound

/-- R151 and R200: from a sound state the datapath raises nothing; the model's only stop is a tune word that was never
loaded. -/
def Obligations.OnlyUnloadedWordsStop : Prop :=
  ∀ (s : State) (f : Fault), s.Sound → s.NotesSound → step s = .fault f → f = .unloadedTuneWord

/-- Every step keeps each lane's amplitude, and all that its deltas can still add, within three full-scale steps, far
inside s32 (R34). -/
def Obligations.StepKeepsAmplitudeBound : Prop :=
  ∀ s t : State, s.Sound → s.AmpSound → step s = .next t → t.AmpSound

/-- R34: within that bound the amplitude registers take the exact sums: no free value is ever used for them. -/
def Obligations.BoundedAmplitudeAddsExactly : Prop :=
  ∀ (c : Channel) (k : Fin 4), c.AmpOk → c.stage = some k →
    (c.applyDelta k).ampL.toInt = c.ampL.toInt + (c.edl.get k).toInt ∧
    (c.applyDelta k).ampR.toInt = c.ampR.toInt + (c.edr.get k).toInt

/-- The invariants hold at power-on, for all parameters within R4, and so at `State.reset` (whose parameters are the
model's choice, assumption 6). -/
def Obligations.PowerOnIsSound : Prop :=
  (∀ (p : Params) (n : Nat), p.ninstr ≤ 4096 → (∀ m ∈ p.codeLen, m ≤ 4096) →
    (State.powerOn p n).Sound ∧ (State.powerOn p n).NotesSound ∧ (State.powerOn p n).AmpSound) ∧
  State.reset.Sound ∧ State.reset.NotesSound ∧ State.reset.AmpSound

/-! ### The tune store (20_memory.md) -/

/-- R74: a host write of a word while HALTED puts the word there and changes no other byte; while RUNNING or FAULTED it is
refused and changes nothing. Where the word lies is the model's choice (assumption 8). -/
def Obligations.HostWritesOnlyWhileHalted : Prop :=
  ∀ (s : State) (rest : List HostMove) (a : TuneWord) (w : Word),
    s.LinesClear → s.busy = false → s.port = .load (.word a w) :: rest →
    (s.run = .halted → s.tuneWordExists a = true →
      ∃ t, step s = .next t ∧ t.mem.readWord (tuneAddr a) = some w ∧
        (∀ x, x ≠ tuneAddr a → x ≠ tuneAddr a + 1 → t.mem.read x = s.mem.read x) ∧
        t = { s with mem := t.mem, port := rest }) ∧
    (s.run ≠ .halted → step s = .next { s with port := rest })

/-- R63: the nine words of a record, word 0 first, with the place of each of the eleven fields; the reserved bits are
written as 0 and ignored on read; and a reserved waveform code faults when `SETI` selects the record. -/
def Obligations.RecordPacksAndUnpacks : Prop :=
  (∀ ins : Instrument, ∃ w0 w7 : Word,
    packInstrument ins = [w0, ins.peak, ins.att, ins.dec, ins.sus, ins.rel, ins.modamp, w7, ins.modph0] ∧
    w0.toNat = ins.carwave.toNat + 16 * ins.modwave.toNat ∧ w7.toNat = 256 * ins.num.toNat + ins.den.toNat ∧
    unpackInstrument (packInstrument ins) = some ins) ∧
  (∀ w0 w1 w2 w3 w4 w5 w6 w7 w8 : Word, ∃ ins : Instrument,
    unpackInstrument [w0, w1, w2, w3, w4, w5, w6, w7, w8] = some ins ∧
    ins.carwave.toNat = w0.toNat % 8 ∧ ins.modwave.toNat = w0.toNat / 16 % 8 ∧ ins.peak = w1 ∧ ins.att = w2 ∧
    ins.dec = w3 ∧ ins.sus = w4 ∧ ins.rel = w5 ∧ ins.modamp = w6 ∧ ins.num.toNat = w7.toNat / 256 ∧
    ins.den.toNat = w7.toNat % 256 ∧ ins.modph0 = w8) ∧
  (∀ (index : BitVec 12) (s : State) (c : Channel) (w : Word), s.ch[s.cur]? = some c → s.run = .running →
    index.toNat < s.params.ninstr → s.instrWord index 0 = some w →
    (4 < w.toNat % 8 ∨ 4 < w.toNat / 16 % 8) →
    exec (.seti index) s = .next (s.faultedBy .reservedWaveform c.pc))

/-- A tune's image (R64), loaded, is read back word for word: the configuration, every record, every command. Two things
here are the model's choices: that a `LOAD` of an image sets NINSTR, NCHAN and CODE_LEN and leaves that many channels at
reset (assumption 7), and where the words lie (assumption 8). -/
def Obligations.LoadedImageReadsBack : Prop :=
  ∀ (s u : State) (t : Tune), t.instruments.length ≤ 4096 → t.code.length < 65536 →
    (∀ code ∈ t.code, code.length ≤ 4096) → u = s.load (.image (tuneImage t)) →
    u.sampleRate = some t.sampleRate ∧ u.beatLen = some t.beatLen ∧
    u.params.ninstr = t.instruments.length ∧ u.ch = List.replicate t.code.length Channel.reset ∧
    (∀ (i : Nat) (ins : Instrument), t.instruments[i]? = some ins → ∀ j, j < 9 →
      u.instrWord (BitVec.ofNat 12 i) j = (packInstrument ins)[j]?) ∧
    (∀ (c : Nat) (code : List Word), t.code[c]? = some code →
      u.codeLen c = code.length ∧
      ∀ k, k < code.length → u.codeWord c (BitVec.ofNat 16 k) = code[k]?)

/-! ### STATUS, unloaded words, and the exact sum of any frame -/

/-- R186 (5): STATUS is allowed always, and has no side effect. Asked for by its line (the model's field, assumption 3) it
is answered by the next step whatever the engine is doing, with `RUN` and the fault record, and nothing else changes but
the line; so it answers RUNNING, again and again, in the hang of R209 too. -/
def Obligations.StatusAnsweredAlways : Prop :=
  (∀ s : State, s.resetLine = false → s.statusLine = true →
    step s = .next { s with
      statusLine := false, sent := s.sent ++ [.status s.run s.fcause s.fchan s.fpc] }) ∧
  (∀ (s : State) (c : Channel) (target : BitVec 12) (n m : Nat), s.Executing c →
    c.pc = BitVec.ofNat 16 target.toNat → c.pc.toNat < s.codeLen s.cur →
    s.codeWord s.cur c.pc = some (encode (.jump target)) →
    ∃ t : State, core.run n s = .next t ∧
      core.run (1 + m) { t with statusLine := true } = .next { s with
        sent := s.sent ++ [.status .running s.fcause s.fchan s.fpc] })

/-- The model's choice within R42 (assumption 9): a word of the tune store that was never loaded stops the model where it
is read, whatever else is loaded: each word `NOTE`, `SETI` and `BEAT` read, the word a fetch reads, and the word a
rendered frame reads. -/
def Obligations.UnloadedWordStops : Prop :=
  ∀ (s : State) (c : Channel), s.ch[s.cur]? = some c →
    (∀ pitch : BitVec 8, pitch.toNat ≤ 107 → c.instr.toNat < s.params.ninstr →
      s.sampleRate = none ∨ s.instrWord c.instr 7 = none → exec (.note pitch) s = .fault .unloadedTuneWord) ∧
    (∀ index : BitVec 12, index.toNat < s.params.ninstr → s.instrWord index 0 = none →
      exec (.seti index) s = .fault .unloadedTuneWord) ∧
    (∀ count : BitVec 12, c.instr.toNat < s.params.ninstr →
      (s.sampleRate = none ∨ s.beatLen = none ∨ ∃ j ∈ [1, 2, 3, 4, 5, 8], s.instrWord c.instr j = none) →
      exec (.beat count) s = .fault .unloadedTuneWord) ∧
    (s.Executing c → c.pc.toNat < s.codeLen s.cur → s.codeWord s.cur c.pc = none →
      step s = .fault .unloadedTuneWord) ∧
    (∀ k : Fin 4, s.AtHead c → 1 ≤ c.nfl.toInt → c.cstep ≠ 0#16 → c.stage = some k → c.efr.get k ≠ 0#32 →
      c.instr.toNat < s.params.ninstr → s.instrWord c.instr 6 = none → step s = .fault .unloadedTuneWord)

/-- R182, R147 and W14 of R236: any frame that ends without a fault, with commands executed in it or not, delivers one
frame whose lanes are the exact sums of all contributions modulo 2^8, and the exact sums themselves where they fit. -/
def Obligations.AnyFrameDeliversItsExactSum : Prop :=
  ∀ (s : State) (n : Nat) (e : FrameEnd), s.LinesClear → s.run = .running → s.frame n = some e →
    e.state.run = .running →
    ∃ f : Frame, e.state.sent = s.sent ++ [.frame f] ∧ f = ⟨BitVec.ofInt 8 e.left, BitVec.ofInt 8 e.right⟩ ∧
      (e.Fits → f.l.toInt = e.left ∧ f.r.toInt = e.right)

/-- A launched tune of any number of channels, 65536 and more among them, which no image of R64 holds (assumption 7): the
block runs, every channel is at reset, and every word of the configuration, of every record and of every store is read
back. So W14 of R236 (`tuneW14`) speaks of the tune itself, however many channels it has. Where the words lie is the
model's choice (assumption 8). -/
def Obligations.LaunchedTuneReadsBack : Prop :=
  ∀ (p : Params) (t : Tune) (u : State), t.instruments.length ≤ 4096 →
    (∀ code ∈ t.code, code.length ≤ 4096) → u = State.launched p t →
    u.LinesClear ∧ u.run = .running ∧ u.busy = false ∧ u.ch = List.replicate t.code.length Channel.reset ∧
    u.params.ninstr = t.instruments.length ∧ u.sampleRate = some t.sampleRate ∧ u.beatLen = some t.beatLen ∧
    (∀ (i : Nat) (ins : Instrument), t.instruments[i]? = some ins → ∀ j, j < 9 →
      u.instrWord (BitVec.ofNat 12 i) j = (packInstrument ins)[j]?) ∧
    (∀ (c : Nat) (code : List Word), t.code[c]? = some code →
      u.codeLen c = code.length ∧
      ∀ k, k < code.length → u.codeWord c (BitVec.ofNat 16 k) = code[k]?)
end

