-- ==== Sys2Proof/Laws/PerInstr.lean ====
section
/-! SUPPORT. One family of statements made for each command: its word carries its row's match bits under the row's mask and
its operand below them (30_encoding.md R80 to R82). -/

namespace Sys2Proof.Laws.RowWord

/-- The mask of a command's row in the opcode map (R82). -/
def mask : Instr → Word
  | .note _ => 0xFF00#16
  | .seti _ => 0xF000#16
  | .beat _ => 0xF000#16
  | .jump _ => 0xF000#16
  | .rept _ => 0xF000#16
  | .pan _ => 0xFF00#16

/-- The match value of a command's row in the opcode map (R82). -/
def pattern : Instr → Word
  | .note _ => 0x0000#16
  | .seti _ => 0x1000#16
  | .beat _ => 0x2000#16
  | .jump _ => 0x3000#16
  | .rept _ => 0x4000#16
  | .pan _ => 0x5000#16

/-- The operand field of a command as an unsigned number (R81). -/
def operand : Instr → Nat
  | .note p => p.toNat
  | .seti i => i.toNat
  | .beat c => c.toNat
  | .jump t => t.toNat
  | .rept c => c.toNat
  | .pan o => o.toNat

/-- The command's word matches its row, and is the row's match value plus the operand. -/
def Statement (i : Instr) : Prop :=
  matchesRow (mask i) (pattern i) (encode i) = true ∧ (encode i).toNat = (pattern i).toNat + operand i

/-- A 4-bit opcode above a 12-bit operand, as a number. -/
theorem toNat_append_12 (a : BitVec 4) (b : BitVec 12) : (a ++ b).toNat = a.toNat * 4096 + b.toNat := by
  rw [BitVec.toNat_append, ← Nat.shiftLeft_add_eq_or_of_lt b.isLt, Nat.shiftLeft_eq]

/-- The high byte of a command with an 8-bit operand above that operand, as a number. -/
theorem toNat_append_8 (a b : BitVec 8) : (a ++ b).toNat = a.toNat * 256 + b.toNat := by
  rw [BitVec.toNat_append, ← Nat.shiftLeft_add_eq_or_of_lt b.isLt, Nat.shiftLeft_eq]

/-- The operand's bits fall away under a 4-bit row's mask. -/
theorem and_mask_12 (a : BitVec 4) (b : BitVec 12) : (a ++ b) &&& 0xF000#16 = a ++ 0#12 := by
  apply BitVec.eq_of_getLsbD_eq
  intro i hi
  have e : (0xF000#16).getLsbD i = decide (12 ≤ i) := by interval_cases i <;> rfl
  rw [BitVec.getLsbD_and, e]
  simp only [BitVec.getLsbD_append]
  by_cases h : i < 12
  · simp [h]
  · simp [h]; omega

/-- The operand's bits fall away under an 8-bit row's mask. -/
theorem and_mask_8 (a b : BitVec 8) : (a ++ b) &&& 0xFF00#16 = a ++ 0#8 := by
  apply BitVec.eq_of_getLsbD_eq
  intro i hi
  have e : (0xFF00#16).getLsbD i = decide (8 ≤ i) := by interval_cases i <;> rfl
  rw [BitVec.getLsbD_and, e]
  simp only [BitVec.getLsbD_append]
  by_cases h : i < 8
  · simp [h]
  · simp [h]; omega

theorem note (pitch : BitVec 8) : Statement (.note pitch) :=
  ⟨by simp only [matchesRow, mask, pattern, encode, and_mask_8]; rfl,
   by simp only [encode, toNat_append_8, pattern, operand]; rfl⟩

theorem seti (index : BitVec 12) : Statement (.seti index) :=
  ⟨by simp only [matchesRow, mask, pattern, encode, and_mask_12]; rfl,
   by simp only [encode, toNat_append_12, pattern, operand]; rfl⟩

theorem beat (count : BitVec 12) : Statement (.beat count) :=
  ⟨by simp only [matchesRow, mask, pattern, encode, and_mask_12]; rfl,
   by simp only [encode, toNat_append_12, pattern, operand]; rfl⟩

theorem jump (target : BitVec 12) : Statement (.jump target) :=
  ⟨by simp only [matchesRow, mask, pattern, encode, and_mask_12]; rfl,
   by simp only [encode, toNat_append_12, pattern, operand]; rfl⟩

theorem rept (count : BitVec 12) : Statement (.rept count) :=
  ⟨by simp only [matchesRow, mask, pattern, encode, and_mask_12]; rfl,
   by simp only [encode, toNat_append_12, pattern, operand]; rfl⟩

theorem pan (offset : BitVec 8) : Statement (.pan offset) :=
  ⟨by simp only [matchesRow, mask, pattern, encode, and_mask_8]; rfl,
   by simp only [encode, toNat_append_8, pattern, operand]; rfl⟩

end Sys2Proof.Laws.RowWord
end

