-- ==== Sys2Proof/Laws/Decode.lean ====
section
/-! SUPPORT. The decoder read as arithmetic: what the two masks of 30_encoding.md R82 test, and the operand fields, as
quotients and remainders of the word's number. -/

namespace Sys2Proof

/-- The mask of a 12-bit operand leaves the high four bits. -/
theorem and_F000_eq_iff (w m : Word) (h : m.toNat % 4096 = 0) :
    w &&& 0xF000#16 = m ↔ w.toNat / 4096 = m.toNat / 4096 := by
  have e : w &&& 0xF000#16 = w.extractLsb' 12 4 ++ 0#12 := by
    apply BitVec.eq_of_getLsbD_eq
    intro i hi
    have e2 : (0xF000#16).getLsbD i = decide (12 ≤ i) := by interval_cases i <;> rfl
    rw [BitVec.getLsbD_and, e2]
    simp only [BitVec.getLsbD_append, BitVec.getLsbD_extractLsb']
    by_cases h : i < 12
    · simp [h]
    · have e3 : 12 + (i - 12) = i := by omega
      have h4 : i - 12 < 4 := by omega
      have h12 : 12 ≤ i := by omega
      simp [h, e3, h4, h12]
  rw [e, ← BitVec.toNat_inj, Laws.RowWord.toNat_append_12]
  have := w.isLt
  have := m.isLt
  simp [BitVec.extractLsb'_toNat, Nat.shiftRight_eq_div_pow]
  omega

/-- The mask of an 8-bit operand leaves the high byte. -/
theorem and_FF00_eq_iff (w m : Word) (h : m.toNat % 256 = 0) :
    w &&& 0xFF00#16 = m ↔ w.toNat / 256 = m.toNat / 256 := by
  have e : w &&& 0xFF00#16 = w.extractLsb' 8 8 ++ 0#8 := by
    apply BitVec.eq_of_getLsbD_eq
    intro i hi
    have e2 : (0xFF00#16).getLsbD i = decide (8 ≤ i) := by interval_cases i <;> rfl
    rw [BitVec.getLsbD_and, e2]
    simp only [BitVec.getLsbD_append, BitVec.getLsbD_extractLsb']
    by_cases h : i < 8
    · simp [h]
    · have e3 : 8 + (i - 8) = i := by omega
      have h4 : i - 8 < 8 := by omega
      have h12 : 8 ≤ i := by omega
      simp [h, e3, h4, h12]
  rw [e, ← BitVec.toNat_inj, Laws.RowWord.toNat_append_8]
  have := w.isLt
  have := m.isLt
  simp [BitVec.extractLsb'_toNat, Nat.shiftRight_eq_div_pow]
  omega

/-- The decoder, its tests as quotients of the word's number (R82). -/
theorem decodeWord_eq (w : Word) :
    decodeWord w =
      if w.toNat / 256 = 0 then some (.note (w.extractLsb' 0 8))
      else if w.toNat / 4096 = 1 then some (.seti (w.extractLsb' 0 12))
      else if w.toNat / 4096 = 2 then some (.beat (w.extractLsb' 0 12))
      else if w.toNat / 4096 = 3 then some (.jump (w.extractLsb' 0 12))
      else if w.toNat / 4096 = 4 then some (.rept (w.extractLsb' 0 12))
      else if w.toNat / 256 = 80 then some (.pan (w.extractLsb' 0 8))
      else none := by
  simp only [decodeWord, matchesRow, beq_iff_eq, and_FF00_eq_iff w 0x0000#16 (by rfl),
    and_F000_eq_iff w 0x1000#16 (by rfl), and_F000_eq_iff w 0x2000#16 (by rfl),
    and_F000_eq_iff w 0x3000#16 (by rfl), and_F000_eq_iff w 0x4000#16 (by rfl),
    and_FF00_eq_iff w 0x5000#16 (by rfl)]
  rfl

/-- The 8-bit operand field as a number (R81). -/
@[simp] theorem toNat_operand_8 (w : Word) : (w.extractLsb' 0 8).toNat = w.toNat % 256 := by
  simp [BitVec.extractLsb'_toNat]

/-- The 12-bit operand field as a number (R81). -/
@[simp] theorem toNat_operand_12 (w : Word) : (w.extractLsb' 0 12).toNat = w.toNat % 4096 := by
  simp [BitVec.extractLsb'_toNat]

end Sys2Proof
end

