-- ==== Sys2Proof/Laws/State.lean ====
section
/-! SUPPORT. One lemma for each field and each named update of a channel or of the state, true by unfolding, so that no
proof unfolds a record update. -/

namespace Sys2Proof.Machine

/-! ### Channel.setPc -/

@[simp] theorem Channel.setPc_pc (c : Channel) (v : Word) :
    (c.setPc v).pc = v := rfl
@[simp] theorem Channel.setPc_instr (c : Channel) (v : Word) :
    (c.setPc v).instr = c.instr := rfl
@[simp] theorem Channel.setPc_wselc (c : Channel) (v : Word) :
    (c.setPc v).wselc = c.wselc := rfl
@[simp] theorem Channel.setPc_wselm (c : Channel) (v : Word) :
    (c.setPc v).wselm = c.wselm := rfl
@[simp] theorem Channel.setPc_nfl (c : Channel) (v : Word) :
    (c.setPc v).nfl = c.nfl := rfl
@[simp] theorem Channel.setPc_cph (c : Channel) (v : Word) :
    (c.setPc v).cph = c.cph := rfl
@[simp] theorem Channel.setPc_cstep (c : Channel) (v : Word) :
    (c.setPc v).cstep = c.cstep := rfl
@[simp] theorem Channel.setPc_mph (c : Channel) (v : Word) :
    (c.setPc v).mph = c.mph := rfl
@[simp] theorem Channel.setPc_mstep (c : Channel) (v : Word) :
    (c.setPc v).mstep = c.mstep := rfl
@[simp] theorem Channel.setPc_panL (c : Channel) (v : Word) :
    (c.setPc v).panL = c.panL := rfl
@[simp] theorem Channel.setPc_panR (c : Channel) (v : Word) :
    (c.setPc v).panR = c.panR := rfl
@[simp] theorem Channel.setPc_ampL (c : Channel) (v : Word) :
    (c.setPc v).ampL = c.ampL := rfl
@[simp] theorem Channel.setPc_ampR (c : Channel) (v : Word) :
    (c.setPc v).ampR = c.ampR := rfl
@[simp] theorem Channel.setPc_efr (c : Channel) (v : Word) :
    (c.setPc v).efr = c.efr := rfl
@[simp] theorem Channel.setPc_edl (c : Channel) (v : Word) :
    (c.setPc v).edl = c.edl := rfl
@[simp] theorem Channel.setPc_edr (c : Channel) (v : Word) :
    (c.setPc v).edr = c.edr := rfl
@[simp] theorem Channel.setPc_ecur (c : Channel) (v : Word) :
    (c.setPc v).ecur = c.ecur := rfl
@[simp] theorem Channel.setPc_loop (c : Channel) (v : Word) :
    (c.setPc v).loop = c.loop := rfl

/-! ### Channel.advance -/

@[simp] theorem Channel.advance_pc (c : Channel)  :
    (c.advance).pc = c.pc + 1#16 := rfl
@[simp] theorem Channel.advance_instr (c : Channel)  :
    (c.advance).instr = c.instr := rfl
@[simp] theorem Channel.advance_wselc (c : Channel)  :
    (c.advance).wselc = c.wselc := rfl
@[simp] theorem Channel.advance_wselm (c : Channel)  :
    (c.advance).wselm = c.wselm := rfl
@[simp] theorem Channel.advance_nfl (c : Channel)  :
    (c.advance).nfl = c.nfl := rfl
@[simp] theorem Channel.advance_cph (c : Channel)  :
    (c.advance).cph = c.cph := rfl
@[simp] theorem Channel.advance_cstep (c : Channel)  :
    (c.advance).cstep = c.cstep := rfl
@[simp] theorem Channel.advance_mph (c : Channel)  :
    (c.advance).mph = c.mph := rfl
@[simp] theorem Channel.advance_mstep (c : Channel)  :
    (c.advance).mstep = c.mstep := rfl
@[simp] theorem Channel.advance_panL (c : Channel)  :
    (c.advance).panL = c.panL := rfl
@[simp] theorem Channel.advance_panR (c : Channel)  :
    (c.advance).panR = c.panR := rfl
@[simp] theorem Channel.advance_ampL (c : Channel)  :
    (c.advance).ampL = c.ampL := rfl
@[simp] theorem Channel.advance_ampR (c : Channel)  :
    (c.advance).ampR = c.ampR := rfl
@[simp] theorem Channel.advance_efr (c : Channel)  :
    (c.advance).efr = c.efr := rfl
@[simp] theorem Channel.advance_edl (c : Channel)  :
    (c.advance).edl = c.edl := rfl
@[simp] theorem Channel.advance_edr (c : Channel)  :
    (c.advance).edr = c.edr := rfl
@[simp] theorem Channel.advance_ecur (c : Channel)  :
    (c.advance).ecur = c.ecur := rfl
@[simp] theorem Channel.advance_loop (c : Channel)  :
    (c.advance).loop = c.loop := rfl

/-! ### Channel.setSteps -/

@[simp] theorem Channel.setSteps_pc (c : Channel) (cs ms : Word) :
    (c.setSteps cs ms).pc = c.pc := rfl
@[simp] theorem Channel.setSteps_instr (c : Channel) (cs ms : Word) :
    (c.setSteps cs ms).instr = c.instr := rfl
@[simp] theorem Channel.setSteps_wselc (c : Channel) (cs ms : Word) :
    (c.setSteps cs ms).wselc = c.wselc := rfl
@[simp] theorem Channel.setSteps_wselm (c : Channel) (cs ms : Word) :
    (c.setSteps cs ms).wselm = c.wselm := rfl
@[simp] theorem Channel.setSteps_nfl (c : Channel) (cs ms : Word) :
    (c.setSteps cs ms).nfl = c.nfl := rfl
@[simp] theorem Channel.setSteps_cph (c : Channel) (cs ms : Word) :
    (c.setSteps cs ms).cph = c.cph := rfl
@[simp] theorem Channel.setSteps_cstep (c : Channel) (cs ms : Word) :
    (c.setSteps cs ms).cstep = cs := rfl
@[simp] theorem Channel.setSteps_mph (c : Channel) (cs ms : Word) :
    (c.setSteps cs ms).mph = c.mph := rfl
@[simp] theorem Channel.setSteps_mstep (c : Channel) (cs ms : Word) :
    (c.setSteps cs ms).mstep = ms := rfl
@[simp] theorem Channel.setSteps_panL (c : Channel) (cs ms : Word) :
    (c.setSteps cs ms).panL = c.panL := rfl
@[simp] theorem Channel.setSteps_panR (c : Channel) (cs ms : Word) :
    (c.setSteps cs ms).panR = c.panR := rfl
@[simp] theorem Channel.setSteps_ampL (c : Channel) (cs ms : Word) :
    (c.setSteps cs ms).ampL = c.ampL := rfl
@[simp] theorem Channel.setSteps_ampR (c : Channel) (cs ms : Word) :
    (c.setSteps cs ms).ampR = c.ampR := rfl
@[simp] theorem Channel.setSteps_efr (c : Channel) (cs ms : Word) :
    (c.setSteps cs ms).efr = c.efr := rfl
@[simp] theorem Channel.setSteps_edl (c : Channel) (cs ms : Word) :
    (c.setSteps cs ms).edl = c.edl := rfl
@[simp] theorem Channel.setSteps_edr (c : Channel) (cs ms : Word) :
    (c.setSteps cs ms).edr = c.edr := rfl
@[simp] theorem Channel.setSteps_ecur (c : Channel) (cs ms : Word) :
    (c.setSteps cs ms).ecur = c.ecur := rfl
@[simp] theorem Channel.setSteps_loop (c : Channel) (cs ms : Word) :
    (c.setSteps cs ms).loop = c.loop := rfl

/-! ### Channel.setInstr -/

@[simp] theorem Channel.setInstr_pc (c : Channel) (i : BitVec 12) (a b : Waveform) :
    (c.setInstr i a b).pc = c.pc := rfl
@[simp] theorem Channel.setInstr_instr (c : Channel) (i : BitVec 12) (a b : Waveform) :
    (c.setInstr i a b).instr = i := rfl
@[simp] theorem Channel.setInstr_wselc (c : Channel) (i : BitVec 12) (a b : Waveform) :
    (c.setInstr i a b).wselc = a := rfl
@[simp] theorem Channel.setInstr_wselm (c : Channel) (i : BitVec 12) (a b : Waveform) :
    (c.setInstr i a b).wselm = b := rfl
@[simp] theorem Channel.setInstr_nfl (c : Channel) (i : BitVec 12) (a b : Waveform) :
    (c.setInstr i a b).nfl = c.nfl := rfl
@[simp] theorem Channel.setInstr_cph (c : Channel) (i : BitVec 12) (a b : Waveform) :
    (c.setInstr i a b).cph = c.cph := rfl
@[simp] theorem Channel.setInstr_cstep (c : Channel) (i : BitVec 12) (a b : Waveform) :
    (c.setInstr i a b).cstep = c.cstep := rfl
@[simp] theorem Channel.setInstr_mph (c : Channel) (i : BitVec 12) (a b : Waveform) :
    (c.setInstr i a b).mph = c.mph := rfl
@[simp] theorem Channel.setInstr_mstep (c : Channel) (i : BitVec 12) (a b : Waveform) :
    (c.setInstr i a b).mstep = c.mstep := rfl
@[simp] theorem Channel.setInstr_panL (c : Channel) (i : BitVec 12) (a b : Waveform) :
    (c.setInstr i a b).panL = c.panL := rfl
@[simp] theorem Channel.setInstr_panR (c : Channel) (i : BitVec 12) (a b : Waveform) :
    (c.setInstr i a b).panR = c.panR := rfl
@[simp] theorem Channel.setInstr_ampL (c : Channel) (i : BitVec 12) (a b : Waveform) :
    (c.setInstr i a b).ampL = c.ampL := rfl
@[simp] theorem Channel.setInstr_ampR (c : Channel) (i : BitVec 12) (a b : Waveform) :
    (c.setInstr i a b).ampR = c.ampR := rfl
@[simp] theorem Channel.setInstr_efr (c : Channel) (i : BitVec 12) (a b : Waveform) :
    (c.setInstr i a b).efr = c.efr := rfl
@[simp] theorem Channel.setInstr_edl (c : Channel) (i : BitVec 12) (a b : Waveform) :
    (c.setInstr i a b).edl = c.edl := rfl
@[simp] theorem Channel.setInstr_edr (c : Channel) (i : BitVec 12) (a b : Waveform) :
    (c.setInstr i a b).edr = c.edr := rfl
@[simp] theorem Channel.setInstr_ecur (c : Channel) (i : BitVec 12) (a b : Waveform) :
    (c.setInstr i a b).ecur = c.ecur := rfl
@[simp] theorem Channel.setInstr_loop (c : Channel) (i : BitVec 12) (a b : Waveform) :
    (c.setInstr i a b).loop = c.loop := rfl

/-! ### Channel.setPan -/

@[simp] theorem Channel.setPan_pc (c : Channel) (l r : BitVec 9) :
    (c.setPan l r).pc = c.pc := rfl
@[simp] theorem Channel.setPan_instr (c : Channel) (l r : BitVec 9) :
    (c.setPan l r).instr = c.instr := rfl
@[simp] theorem Channel.setPan_wselc (c : Channel) (l r : BitVec 9) :
    (c.setPan l r).wselc = c.wselc := rfl
@[simp] theorem Channel.setPan_wselm (c : Channel) (l r : BitVec 9) :
    (c.setPan l r).wselm = c.wselm := rfl
@[simp] theorem Channel.setPan_nfl (c : Channel) (l r : BitVec 9) :
    (c.setPan l r).nfl = c.nfl := rfl
@[simp] theorem Channel.setPan_cph (c : Channel) (l r : BitVec 9) :
    (c.setPan l r).cph = c.cph := rfl
@[simp] theorem Channel.setPan_cstep (c : Channel) (l r : BitVec 9) :
    (c.setPan l r).cstep = c.cstep := rfl
@[simp] theorem Channel.setPan_mph (c : Channel) (l r : BitVec 9) :
    (c.setPan l r).mph = c.mph := rfl
@[simp] theorem Channel.setPan_mstep (c : Channel) (l r : BitVec 9) :
    (c.setPan l r).mstep = c.mstep := rfl
@[simp] theorem Channel.setPan_panL (c : Channel) (l r : BitVec 9) :
    (c.setPan l r).panL = l := rfl
@[simp] theorem Channel.setPan_panR (c : Channel) (l r : BitVec 9) :
    (c.setPan l r).panR = r := rfl
@[simp] theorem Channel.setPan_ampL (c : Channel) (l r : BitVec 9) :
    (c.setPan l r).ampL = c.ampL := rfl
@[simp] theorem Channel.setPan_ampR (c : Channel) (l r : BitVec 9) :
    (c.setPan l r).ampR = c.ampR := rfl
@[simp] theorem Channel.setPan_efr (c : Channel) (l r : BitVec 9) :
    (c.setPan l r).efr = c.efr := rfl
@[simp] theorem Channel.setPan_edl (c : Channel) (l r : BitVec 9) :
    (c.setPan l r).edl = c.edl := rfl
@[simp] theorem Channel.setPan_edr (c : Channel) (l r : BitVec 9) :
    (c.setPan l r).edr = c.edr := rfl
@[simp] theorem Channel.setPan_ecur (c : Channel) (l r : BitVec 9) :
    (c.setPan l r).ecur = c.ecur := rfl
@[simp] theorem Channel.setPan_loop (c : Channel) (l r : BitVec 9) :
    (c.setPan l r).loop = c.loop := rfl

/-! ### Channel.setLoop -/

@[simp] theorem Channel.setLoop_pc (c : Channel) (v : BitVec 12) :
    (c.setLoop v).pc = c.pc := rfl
@[simp] theorem Channel.setLoop_instr (c : Channel) (v : BitVec 12) :
    (c.setLoop v).instr = c.instr := rfl
@[simp] theorem Channel.setLoop_wselc (c : Channel) (v : BitVec 12) :
    (c.setLoop v).wselc = c.wselc := rfl
@[simp] theorem Channel.setLoop_wselm (c : Channel) (v : BitVec 12) :
    (c.setLoop v).wselm = c.wselm := rfl
@[simp] theorem Channel.setLoop_nfl (c : Channel) (v : BitVec 12) :
    (c.setLoop v).nfl = c.nfl := rfl
@[simp] theorem Channel.setLoop_cph (c : Channel) (v : BitVec 12) :
    (c.setLoop v).cph = c.cph := rfl
@[simp] theorem Channel.setLoop_cstep (c : Channel) (v : BitVec 12) :
    (c.setLoop v).cstep = c.cstep := rfl
@[simp] theorem Channel.setLoop_mph (c : Channel) (v : BitVec 12) :
    (c.setLoop v).mph = c.mph := rfl
@[simp] theorem Channel.setLoop_mstep (c : Channel) (v : BitVec 12) :
    (c.setLoop v).mstep = c.mstep := rfl
@[simp] theorem Channel.setLoop_panL (c : Channel) (v : BitVec 12) :
    (c.setLoop v).panL = c.panL := rfl
@[simp] theorem Channel.setLoop_panR (c : Channel) (v : BitVec 12) :
    (c.setLoop v).panR = c.panR := rfl
@[simp] theorem Channel.setLoop_ampL (c : Channel) (v : BitVec 12) :
    (c.setLoop v).ampL = c.ampL := rfl
@[simp] theorem Channel.setLoop_ampR (c : Channel) (v : BitVec 12) :
    (c.setLoop v).ampR = c.ampR := rfl
@[simp] theorem Channel.setLoop_efr (c : Channel) (v : BitVec 12) :
    (c.setLoop v).efr = c.efr := rfl
@[simp] theorem Channel.setLoop_edl (c : Channel) (v : BitVec 12) :
    (c.setLoop v).edl = c.edl := rfl
@[simp] theorem Channel.setLoop_edr (c : Channel) (v : BitVec 12) :
    (c.setLoop v).edr = c.edr := rfl
@[simp] theorem Channel.setLoop_ecur (c : Channel) (v : BitVec 12) :
    (c.setLoop v).ecur = c.ecur := rfl
@[simp] theorem Channel.setLoop_loop (c : Channel) (v : BitVec 12) :
    (c.setLoop v).loop = v := rfl

/-! ### Channel.countFrame -/

@[simp] theorem Channel.countFrame_pc (c : Channel)  :
    (c.countFrame).pc = c.pc := rfl
@[simp] theorem Channel.countFrame_instr (c : Channel)  :
    (c.countFrame).instr = c.instr := rfl
@[simp] theorem Channel.countFrame_wselc (c : Channel)  :
    (c.countFrame).wselc = c.wselc := rfl
@[simp] theorem Channel.countFrame_wselm (c : Channel)  :
    (c.countFrame).wselm = c.wselm := rfl
@[simp] theorem Channel.countFrame_nfl (c : Channel)  :
    (c.countFrame).nfl = toLong (c.nfl.toInt - 1) := rfl
@[simp] theorem Channel.countFrame_cph (c : Channel)  :
    (c.countFrame).cph = c.cph := rfl
@[simp] theorem Channel.countFrame_cstep (c : Channel)  :
    (c.countFrame).cstep = c.cstep := rfl
@[simp] theorem Channel.countFrame_mph (c : Channel)  :
    (c.countFrame).mph = c.mph := rfl
@[simp] theorem Channel.countFrame_mstep (c : Channel)  :
    (c.countFrame).mstep = c.mstep := rfl
@[simp] theorem Channel.countFrame_panL (c : Channel)  :
    (c.countFrame).panL = c.panL := rfl
@[simp] theorem Channel.countFrame_panR (c : Channel)  :
    (c.countFrame).panR = c.panR := rfl
@[simp] theorem Channel.countFrame_ampL (c : Channel)  :
    (c.countFrame).ampL = c.ampL := rfl
@[simp] theorem Channel.countFrame_ampR (c : Channel)  :
    (c.countFrame).ampR = c.ampR := rfl
@[simp] theorem Channel.countFrame_efr (c : Channel)  :
    (c.countFrame).efr = c.efr := rfl
@[simp] theorem Channel.countFrame_edl (c : Channel)  :
    (c.countFrame).edl = c.edl := rfl
@[simp] theorem Channel.countFrame_edr (c : Channel)  :
    (c.countFrame).edr = c.edr := rfl
@[simp] theorem Channel.countFrame_ecur (c : Channel)  :
    (c.countFrame).ecur = c.ecur := rfl
@[simp] theorem Channel.countFrame_loop (c : Channel)  :
    (c.countFrame).loop = c.loop := rfl

/-! ### Channel.applyDelta -/

@[simp] theorem Channel.applyDelta_pc (c : Channel) (k : Fin 4) :
    (c.applyDelta k).pc = c.pc := rfl
@[simp] theorem Channel.applyDelta_instr (c : Channel) (k : Fin 4) :
    (c.applyDelta k).instr = c.instr := rfl
@[simp] theorem Channel.applyDelta_wselc (c : Channel) (k : Fin 4) :
    (c.applyDelta k).wselc = c.wselc := rfl
@[simp] theorem Channel.applyDelta_wselm (c : Channel) (k : Fin 4) :
    (c.applyDelta k).wselm = c.wselm := rfl
@[simp] theorem Channel.applyDelta_nfl (c : Channel) (k : Fin 4) :
    (c.applyDelta k).nfl = c.nfl := rfl
@[simp] theorem Channel.applyDelta_cph (c : Channel) (k : Fin 4) :
    (c.applyDelta k).cph = c.cph := rfl
@[simp] theorem Channel.applyDelta_cstep (c : Channel) (k : Fin 4) :
    (c.applyDelta k).cstep = c.cstep := rfl
@[simp] theorem Channel.applyDelta_mph (c : Channel) (k : Fin 4) :
    (c.applyDelta k).mph = c.mph := rfl
@[simp] theorem Channel.applyDelta_mstep (c : Channel) (k : Fin 4) :
    (c.applyDelta k).mstep = c.mstep := rfl
@[simp] theorem Channel.applyDelta_panL (c : Channel) (k : Fin 4) :
    (c.applyDelta k).panL = c.panL := rfl
@[simp] theorem Channel.applyDelta_panR (c : Channel) (k : Fin 4) :
    (c.applyDelta k).panR = c.panR := rfl
@[simp] theorem Channel.applyDelta_ampL (c : Channel) (k : Fin 4) :
    (c.applyDelta k).ampL = addAmplitude c.ampL (c.edl.get k) := rfl
@[simp] theorem Channel.applyDelta_ampR (c : Channel) (k : Fin 4) :
    (c.applyDelta k).ampR = addAmplitude c.ampR (c.edr.get k) := rfl
@[simp] theorem Channel.applyDelta_efr (c : Channel) (k : Fin 4) :
    (c.applyDelta k).efr = c.efr := rfl
@[simp] theorem Channel.applyDelta_edl (c : Channel) (k : Fin 4) :
    (c.applyDelta k).edl = c.edl := rfl
@[simp] theorem Channel.applyDelta_edr (c : Channel) (k : Fin 4) :
    (c.applyDelta k).edr = c.edr := rfl
@[simp] theorem Channel.applyDelta_ecur (c : Channel) (k : Fin 4) :
    (c.applyDelta k).ecur = c.ecur := rfl
@[simp] theorem Channel.applyDelta_loop (c : Channel) (k : Fin 4) :
    (c.applyDelta k).loop = c.loop := rfl

/-! ### Channel.passStage -/

@[simp] theorem Channel.passStage_pc (c : Channel) (k : Fin 4) :
    (c.passStage k).pc = c.pc := rfl
@[simp] theorem Channel.passStage_instr (c : Channel) (k : Fin 4) :
    (c.passStage k).instr = c.instr := rfl
@[simp] theorem Channel.passStage_wselc (c : Channel) (k : Fin 4) :
    (c.passStage k).wselc = c.wselc := rfl
@[simp] theorem Channel.passStage_wselm (c : Channel) (k : Fin 4) :
    (c.passStage k).wselm = c.wselm := rfl
@[simp] theorem Channel.passStage_nfl (c : Channel) (k : Fin 4) :
    (c.passStage k).nfl = c.nfl := rfl
@[simp] theorem Channel.passStage_cph (c : Channel) (k : Fin 4) :
    (c.passStage k).cph = c.cph := rfl
@[simp] theorem Channel.passStage_cstep (c : Channel) (k : Fin 4) :
    (c.passStage k).cstep = c.cstep := rfl
@[simp] theorem Channel.passStage_mph (c : Channel) (k : Fin 4) :
    (c.passStage k).mph = c.mph := rfl
@[simp] theorem Channel.passStage_mstep (c : Channel) (k : Fin 4) :
    (c.passStage k).mstep = c.mstep := rfl
@[simp] theorem Channel.passStage_panL (c : Channel) (k : Fin 4) :
    (c.passStage k).panL = c.panL := rfl
@[simp] theorem Channel.passStage_panR (c : Channel) (k : Fin 4) :
    (c.passStage k).panR = c.panR := rfl
@[simp] theorem Channel.passStage_ampL (c : Channel) (k : Fin 4) :
    (c.passStage k).ampL = c.ampL := rfl
@[simp] theorem Channel.passStage_ampR (c : Channel) (k : Fin 4) :
    (c.passStage k).ampR = c.ampR := rfl
@[simp] theorem Channel.passStage_efr (c : Channel) (k : Fin 4) :
    (c.passStage k).efr = c.efr := rfl
@[simp] theorem Channel.passStage_edl (c : Channel) (k : Fin 4) :
    (c.passStage k).edl = c.edl := rfl
@[simp] theorem Channel.passStage_edr (c : Channel) (k : Fin 4) :
    (c.passStage k).edr = c.edr := rfl
@[simp] theorem Channel.passStage_ecur (c : Channel) (k : Fin 4) :
    (c.passStage k).ecur = k.succ := rfl
@[simp] theorem Channel.passStage_loop (c : Channel) (k : Fin 4) :
    (c.passStage k).loop = c.loop := rfl

/-! ### Channel.countStage -/

@[simp] theorem Channel.countStage_pc (c : Channel) (k : Fin 4) :
    (c.countStage k).pc = c.pc := rfl
@[simp] theorem Channel.countStage_instr (c : Channel) (k : Fin 4) :
    (c.countStage k).instr = c.instr := rfl
@[simp] theorem Channel.countStage_wselc (c : Channel) (k : Fin 4) :
    (c.countStage k).wselc = c.wselc := rfl
@[simp] theorem Channel.countStage_wselm (c : Channel) (k : Fin 4) :
    (c.countStage k).wselm = c.wselm := rfl
@[simp] theorem Channel.countStage_nfl (c : Channel) (k : Fin 4) :
    (c.countStage k).nfl = c.nfl := rfl
@[simp] theorem Channel.countStage_cph (c : Channel) (k : Fin 4) :
    (c.countStage k).cph = c.cph := rfl
@[simp] theorem Channel.countStage_cstep (c : Channel) (k : Fin 4) :
    (c.countStage k).cstep = c.cstep := rfl
@[simp] theorem Channel.countStage_mph (c : Channel) (k : Fin 4) :
    (c.countStage k).mph = c.mph := rfl
@[simp] theorem Channel.countStage_mstep (c : Channel) (k : Fin 4) :
    (c.countStage k).mstep = c.mstep := rfl
@[simp] theorem Channel.countStage_panL (c : Channel) (k : Fin 4) :
    (c.countStage k).panL = c.panL := rfl
@[simp] theorem Channel.countStage_panR (c : Channel) (k : Fin 4) :
    (c.countStage k).panR = c.panR := rfl
@[simp] theorem Channel.countStage_ampL (c : Channel) (k : Fin 4) :
    (c.countStage k).ampL = c.ampL := rfl
@[simp] theorem Channel.countStage_ampR (c : Channel) (k : Fin 4) :
    (c.countStage k).ampR = c.ampR := rfl
@[simp] theorem Channel.countStage_efr (c : Channel) (k : Fin 4) :
    (c.countStage k).efr = c.efr.set k.val (c.efr.get k - 1#32) := rfl
@[simp] theorem Channel.countStage_edl (c : Channel) (k : Fin 4) :
    (c.countStage k).edl = c.edl := rfl
@[simp] theorem Channel.countStage_edr (c : Channel) (k : Fin 4) :
    (c.countStage k).edr = c.edr := rfl
@[simp] theorem Channel.countStage_ecur (c : Channel) (k : Fin 4) :
    (c.countStage k).ecur = c.ecur := rfl
@[simp] theorem Channel.countStage_loop (c : Channel) (k : Fin 4) :
    (c.countStage k).loop = c.loop := rfl

/-! ### Channel.advancePhases -/

@[simp] theorem Channel.advancePhases_pc (c : Channel) (p : Params) (ma : Word) :
    (c.advancePhases p ma).pc = c.pc := rfl
@[simp] theorem Channel.advancePhases_instr (c : Channel) (p : Params) (ma : Word) :
    (c.advancePhases p ma).instr = c.instr := rfl
@[simp] theorem Channel.advancePhases_wselc (c : Channel) (p : Params) (ma : Word) :
    (c.advancePhases p ma).wselc = c.wselc := rfl
@[simp] theorem Channel.advancePhases_wselm (c : Channel) (p : Params) (ma : Word) :
    (c.advancePhases p ma).wselm = c.wselm := rfl
@[simp] theorem Channel.advancePhases_nfl (c : Channel) (p : Params) (ma : Word) :
    (c.advancePhases p ma).nfl = c.nfl := rfl
@[simp] theorem Channel.advancePhases_cph (c : Channel) (p : Params) (ma : Word) :
    (c.advancePhases p ma).cph = wrapU16 ((c.cph.toNat : Int) + modulatedInc c.cstep (modValue (c.modulatorSample p) ma)) := rfl
@[simp] theorem Channel.advancePhases_cstep (c : Channel) (p : Params) (ma : Word) :
    (c.advancePhases p ma).cstep = c.cstep := rfl
@[simp] theorem Channel.advancePhases_mph (c : Channel) (p : Params) (ma : Word) :
    (c.advancePhases p ma).mph = wrapU16 ((c.mph.toNat : Int) + c.mstep.toNat) := rfl
@[simp] theorem Channel.advancePhases_mstep (c : Channel) (p : Params) (ma : Word) :
    (c.advancePhases p ma).mstep = c.mstep := rfl
@[simp] theorem Channel.advancePhases_panL (c : Channel) (p : Params) (ma : Word) :
    (c.advancePhases p ma).panL = c.panL := rfl
@[simp] theorem Channel.advancePhases_panR (c : Channel) (p : Params) (ma : Word) :
    (c.advancePhases p ma).panR = c.panR := rfl
@[simp] theorem Channel.advancePhases_ampL (c : Channel) (p : Params) (ma : Word) :
    (c.advancePhases p ma).ampL = c.ampL := rfl
@[simp] theorem Channel.advancePhases_ampR (c : Channel) (p : Params) (ma : Word) :
    (c.advancePhases p ma).ampR = c.ampR := rfl
@[simp] theorem Channel.advancePhases_efr (c : Channel) (p : Params) (ma : Word) :
    (c.advancePhases p ma).efr = c.efr := rfl
@[simp] theorem Channel.advancePhases_edl (c : Channel) (p : Params) (ma : Word) :
    (c.advancePhases p ma).edl = c.edl := rfl
@[simp] theorem Channel.advancePhases_edr (c : Channel) (p : Params) (ma : Word) :
    (c.advancePhases p ma).edr = c.edr := rfl
@[simp] theorem Channel.advancePhases_ecur (c : Channel) (p : Params) (ma : Word) :
    (c.advancePhases p ma).ecur = c.ecur := rfl
@[simp] theorem Channel.advancePhases_loop (c : Channel) (p : Params) (ma : Word) :
    (c.advancePhases p ma).loop = c.loop := rfl

/-! ### Channel.freshNote -/

@[simp] theorem Channel.freshNote_pc (c : Channel) (o : BeatOperands) (len n : Nat) :
    (c.freshNote o len n).pc = c.pc := rfl
@[simp] theorem Channel.freshNote_instr (c : Channel) (o : BeatOperands) (len n : Nat) :
    (c.freshNote o len n).instr = c.instr := rfl
@[simp] theorem Channel.freshNote_wselc (c : Channel) (o : BeatOperands) (len n : Nat) :
    (c.freshNote o len n).wselc = c.wselc := rfl
@[simp] theorem Channel.freshNote_wselm (c : Channel) (o : BeatOperands) (len n : Nat) :
    (c.freshNote o len n).wselm = c.wselm := rfl
@[simp] theorem Channel.freshNote_nfl (c : Channel) (o : BeatOperands) (len n : Nat) :
    (c.freshNote o len n).nfl = nflOf n len := rfl
@[simp] theorem Channel.freshNote_cph (c : Channel) (o : BeatOperands) (len n : Nat) :
    (c.freshNote o len n).cph = c.cph := rfl
@[simp] theorem Channel.freshNote_cstep (c : Channel) (o : BeatOperands) (len n : Nat) :
    (c.freshNote o len n).cstep = c.cstep := rfl
@[simp] theorem Channel.freshNote_mph (c : Channel) (o : BeatOperands) (len n : Nat) :
    (c.freshNote o len n).mph = c.mph := rfl
@[simp] theorem Channel.freshNote_mstep (c : Channel) (o : BeatOperands) (len n : Nat) :
    (c.freshNote o len n).mstep = c.mstep := rfl
@[simp] theorem Channel.freshNote_panL (c : Channel) (o : BeatOperands) (len n : Nat) :
    (c.freshNote o len n).panL = c.panL := rfl
@[simp] theorem Channel.freshNote_panR (c : Channel) (o : BeatOperands) (len n : Nat) :
    (c.freshNote o len n).panR = c.panR := rfl
@[simp] theorem Channel.freshNote_ampL (c : Channel) (o : BeatOperands) (len n : Nat) :
    (c.freshNote o len n).ampL = 0#32 := rfl
@[simp] theorem Channel.freshNote_ampR (c : Channel) (o : BeatOperands) (len n : Nat) :
    (c.freshNote o len n).ampR = 0#32 := rfl
@[simp] theorem Channel.freshNote_efr (c : Channel) (o : BeatOperands) (len n : Nat) :
    (c.freshNote o len n).efr = stageRegs (n + 1) (o.counts len) := rfl
@[simp] theorem Channel.freshNote_edl (c : Channel) (o : BeatOperands) (len n : Nat) :
    (c.freshNote o len n).edl = laneDeltas (o.counts len) o.peak o.sus c.panL := rfl
@[simp] theorem Channel.freshNote_edr (c : Channel) (o : BeatOperands) (len n : Nat) :
    (c.freshNote o len n).edr = laneDeltas (o.counts len) o.peak o.sus c.panR := rfl
@[simp] theorem Channel.freshNote_ecur (c : Channel) (o : BeatOperands) (len n : Nat) :
    (c.freshNote o len n).ecur = 0 := rfl
@[simp] theorem Channel.freshNote_loop (c : Channel) (o : BeatOperands) (len n : Nat) :
    (c.freshNote o len n).loop = c.loop := rfl

/-! ### State.setChan -/

@[simp] theorem State.setChan_mem (s : State) (c : Channel) :
    (s.setChan c).mem = s.mem := rfl
@[simp] theorem State.setChan_params (s : State) (c : Channel) :
    (s.setChan c).params = s.params := rfl
@[simp] theorem State.setChan_ch (s : State) (c : Channel) :
    (s.setChan c).ch = s.ch.set s.cur c := rfl
@[simp] theorem State.setChan_out (s : State) (c : Channel) :
    (s.setChan c).out = s.out := rfl
@[simp] theorem State.setChan_run (s : State) (c : Channel) :
    (s.setChan c).run = s.run := rfl
@[simp] theorem State.setChan_fcause (s : State) (c : Channel) :
    (s.setChan c).fcause = s.fcause := rfl
@[simp] theorem State.setChan_fchan (s : State) (c : Channel) :
    (s.setChan c).fchan = s.fchan := rfl
@[simp] theorem State.setChan_fpc (s : State) (c : Channel) :
    (s.setChan c).fpc = s.fpc := rfl
@[simp] theorem State.setChan_phase (s : State) (c : Channel) :
    (s.setChan c).phase = s.phase := rfl
@[simp] theorem State.setChan_cur (s : State) (c : Channel) :
    (s.setChan c).cur = s.cur := rfl
@[simp] theorem State.setChan_port (s : State) (c : Channel) :
    (s.setChan c).port = s.port := rfl
@[simp] theorem State.setChan_resetLine (s : State) (c : Channel) :
    (s.setChan c).resetLine = s.resetLine := rfl
@[simp] theorem State.setChan_statusLine (s : State) (c : Channel) :
    (s.setChan c).statusLine = s.statusLine := rfl
@[simp] theorem State.setChan_sent (s : State) (c : Channel) :
    (s.setChan c).sent = s.sent := rfl
@[simp] theorem State.setChan_fresh (s : State) (c : Channel) :
    (s.setChan c).fresh = s.fresh := rfl

/-! ### State.withChannel -/

@[simp] theorem State.withChannel_mem (s : State) (c : Channel) :
    (s.withChannel c).mem = s.mem := rfl
@[simp] theorem State.withChannel_params (s : State) (c : Channel) :
    (s.withChannel c).params = s.params := rfl
@[simp] theorem State.withChannel_ch (s : State) (c : Channel) :
    (s.withChannel c).ch = s.ch.set s.cur c := rfl
@[simp] theorem State.withChannel_out (s : State) (c : Channel) :
    (s.withChannel c).out = s.out := rfl
@[simp] theorem State.withChannel_run (s : State) (c : Channel) :
    (s.withChannel c).run = s.run := rfl
@[simp] theorem State.withChannel_fcause (s : State) (c : Channel) :
    (s.withChannel c).fcause = s.fcause := rfl
@[simp] theorem State.withChannel_fchan (s : State) (c : Channel) :
    (s.withChannel c).fchan = s.fchan := rfl
@[simp] theorem State.withChannel_fpc (s : State) (c : Channel) :
    (s.withChannel c).fpc = s.fpc := rfl
@[simp] theorem State.withChannel_phase (s : State) (c : Channel) :
    (s.withChannel c).phase = s.phase := rfl
@[simp] theorem State.withChannel_cur (s : State) (c : Channel) :
    (s.withChannel c).cur = s.cur := rfl
@[simp] theorem State.withChannel_port (s : State) (c : Channel) :
    (s.withChannel c).port = s.port := rfl
@[simp] theorem State.withChannel_resetLine (s : State) (c : Channel) :
    (s.withChannel c).resetLine = s.resetLine := rfl
@[simp] theorem State.withChannel_statusLine (s : State) (c : Channel) :
    (s.withChannel c).statusLine = s.statusLine := rfl
@[simp] theorem State.withChannel_sent (s : State) (c : Channel) :
    (s.withChannel c).sent = s.sent := rfl
@[simp] theorem State.withChannel_fresh (s : State) (c : Channel) :
    (s.withChannel c).fresh = s.fresh := rfl

/-! ### State.faultedBy -/

@[simp] theorem State.faultedBy_mem (s : State) (cause : FaultCause) (pc0 : Word) :
    (s.faultedBy cause pc0).mem = s.mem := rfl
@[simp] theorem State.faultedBy_params (s : State) (cause : FaultCause) (pc0 : Word) :
    (s.faultedBy cause pc0).params = s.params := rfl
@[simp] theorem State.faultedBy_ch (s : State) (cause : FaultCause) (pc0 : Word) :
    (s.faultedBy cause pc0).ch = s.ch := rfl
@[simp] theorem State.faultedBy_out (s : State) (cause : FaultCause) (pc0 : Word) :
    (s.faultedBy cause pc0).out = s.out := rfl
@[simp] theorem State.faultedBy_run (s : State) (cause : FaultCause) (pc0 : Word) :
    (s.faultedBy cause pc0).run = .faulted := rfl
@[simp] theorem State.faultedBy_fcause (s : State) (cause : FaultCause) (pc0 : Word) :
    (s.faultedBy cause pc0).fcause = cause := rfl
@[simp] theorem State.faultedBy_fchan (s : State) (cause : FaultCause) (pc0 : Word) :
    (s.faultedBy cause pc0).fchan = s.cur := rfl
@[simp] theorem State.faultedBy_fpc (s : State) (cause : FaultCause) (pc0 : Word) :
    (s.faultedBy cause pc0).fpc = pc0 := rfl
@[simp] theorem State.faultedBy_phase (s : State) (cause : FaultCause) (pc0 : Word) :
    (s.faultedBy cause pc0).phase = .idle := rfl
@[simp] theorem State.faultedBy_cur (s : State) (cause : FaultCause) (pc0 : Word) :
    (s.faultedBy cause pc0).cur = s.cur := rfl
@[simp] theorem State.faultedBy_port (s : State) (cause : FaultCause) (pc0 : Word) :
    (s.faultedBy cause pc0).port = s.port := rfl
@[simp] theorem State.faultedBy_resetLine (s : State) (cause : FaultCause) (pc0 : Word) :
    (s.faultedBy cause pc0).resetLine = s.resetLine := rfl
@[simp] theorem State.faultedBy_statusLine (s : State) (cause : FaultCause) (pc0 : Word) :
    (s.faultedBy cause pc0).statusLine = s.statusLine := rfl
@[simp] theorem State.faultedBy_sent (s : State) (cause : FaultCause) (pc0 : Word) :
    (s.faultedBy cause pc0).sent = s.sent := rfl
@[simp] theorem State.faultedBy_fresh (s : State) (cause : FaultCause) (pc0 : Word) :
    (s.faultedBy cause pc0).fresh = s.fresh := rfl

/-! ### State.beginNote -/

@[simp] theorem State.beginNote_mem (s : State) (c : Channel) (o : BeatOperands) (len : Nat) :
    (s.beginNote c o len).mem = s.mem := rfl
@[simp] theorem State.beginNote_params (s : State) (c : Channel) (o : BeatOperands) (len : Nat) :
    (s.beginNote c o len).params = s.params := rfl
@[simp] theorem State.beginNote_ch (s : State) (c : Channel) (o : BeatOperands) (len : Nat) :
    (s.beginNote c o len).ch = s.ch.set s.cur (c.startNote o len s.fresh).advance := rfl
@[simp] theorem State.beginNote_out (s : State) (c : Channel) (o : BeatOperands) (len : Nat) :
    (s.beginNote c o len).out = s.out := rfl
@[simp] theorem State.beginNote_run (s : State) (c : Channel) (o : BeatOperands) (len : Nat) :
    (s.beginNote c o len).run = s.run := rfl
@[simp] theorem State.beginNote_fcause (s : State) (c : Channel) (o : BeatOperands) (len : Nat) :
    (s.beginNote c o len).fcause = s.fcause := rfl
@[simp] theorem State.beginNote_fchan (s : State) (c : Channel) (o : BeatOperands) (len : Nat) :
    (s.beginNote c o len).fchan = s.fchan := rfl
@[simp] theorem State.beginNote_fpc (s : State) (c : Channel) (o : BeatOperands) (len : Nat) :
    (s.beginNote c o len).fpc = s.fpc := rfl
@[simp] theorem State.beginNote_phase (s : State) (c : Channel) (o : BeatOperands) (len : Nat) :
    (s.beginNote c o len).phase = afterExecute s.phase := rfl
@[simp] theorem State.beginNote_cur (s : State) (c : Channel) (o : BeatOperands) (len : Nat) :
    (s.beginNote c o len).cur = s.cur := rfl
@[simp] theorem State.beginNote_port (s : State) (c : Channel) (o : BeatOperands) (len : Nat) :
    (s.beginNote c o len).port = s.port := rfl
@[simp] theorem State.beginNote_resetLine (s : State) (c : Channel) (o : BeatOperands) (len : Nat) :
    (s.beginNote c o len).resetLine = s.resetLine := rfl
@[simp] theorem State.beginNote_statusLine (s : State) (c : Channel) (o : BeatOperands) (len : Nat) :
    (s.beginNote c o len).statusLine = s.statusLine := rfl
@[simp] theorem State.beginNote_sent (s : State) (c : Channel) (o : BeatOperands) (len : Nat) :
    (s.beginNote c o len).sent = s.sent := rfl
@[simp] theorem State.beginNote_fresh (s : State) (c : Channel) (o : BeatOperands) (len : Nat) :
    (s.beginNote c o len).fresh = s.fresh + beatFresh len := rfl

/-! ### State.deliver -/

@[simp] theorem State.deliver_mem (s : State)  :
    (s.deliver).mem = s.mem := rfl
@[simp] theorem State.deliver_params (s : State)  :
    (s.deliver).params = s.params := rfl
@[simp] theorem State.deliver_ch (s : State)  :
    (s.deliver).ch = s.ch := rfl
@[simp] theorem State.deliver_out (s : State)  :
    (s.deliver).out = s.out := rfl
@[simp] theorem State.deliver_run (s : State)  :
    (s.deliver).run = s.run := rfl
@[simp] theorem State.deliver_fcause (s : State)  :
    (s.deliver).fcause = s.fcause := rfl
@[simp] theorem State.deliver_fchan (s : State)  :
    (s.deliver).fchan = s.fchan := rfl
@[simp] theorem State.deliver_fpc (s : State)  :
    (s.deliver).fpc = s.fpc := rfl
@[simp] theorem State.deliver_phase (s : State)  :
    (s.deliver).phase = .idle := rfl
@[simp] theorem State.deliver_cur (s : State)  :
    (s.deliver).cur = 0 := rfl
@[simp] theorem State.deliver_port (s : State)  :
    (s.deliver).port = s.port := rfl
@[simp] theorem State.deliver_resetLine (s : State)  :
    (s.deliver).resetLine = s.resetLine := rfl
@[simp] theorem State.deliver_statusLine (s : State)  :
    (s.deliver).statusLine = s.statusLine := rfl
@[simp] theorem State.deliver_sent (s : State)  :
    (s.deliver).sent = s.sent ++ [.frame s.out] := rfl
@[simp] theorem State.deliver_fresh (s : State)  :
    (s.deliver).fresh = s.fresh := rfl

/-! ### State.hostReset -/

@[simp] theorem State.hostReset_mem (s : State)  :
    (s.hostReset).mem = s.mem := rfl
@[simp] theorem State.hostReset_params (s : State)  :
    (s.hostReset).params = s.params := rfl
@[simp] theorem State.hostReset_ch (s : State)  :
    (s.hostReset).ch = List.replicate s.ch.length Channel.reset := rfl
@[simp] theorem State.hostReset_out (s : State)  :
    (s.hostReset).out = Frame.zero := rfl
@[simp] theorem State.hostReset_run (s : State)  :
    (s.hostReset).run = .halted := rfl
@[simp] theorem State.hostReset_fcause (s : State)  :
    (s.hostReset).fcause = .none := rfl
@[simp] theorem State.hostReset_fchan (s : State)  :
    (s.hostReset).fchan = 0 := rfl
@[simp] theorem State.hostReset_fpc (s : State)  :
    (s.hostReset).fpc = 0#16 := rfl
@[simp] theorem State.hostReset_phase (s : State)  :
    (s.hostReset).phase = .idle := rfl
@[simp] theorem State.hostReset_cur (s : State)  :
    (s.hostReset).cur = 0 := rfl
@[simp] theorem State.hostReset_port (s : State)  :
    (s.hostReset).port = s.port := rfl
@[simp] theorem State.hostReset_resetLine (s : State)  :
    (s.hostReset).resetLine = s.resetLine := rfl
@[simp] theorem State.hostReset_statusLine (s : State)  :
    (s.hostReset).statusLine = s.statusLine := rfl
@[simp] theorem State.hostReset_sent (s : State)  :
    (s.hostReset).sent = s.sent := rfl
@[simp] theorem State.hostReset_fresh (s : State)  :
    (s.hostReset).fresh = s.fresh := rfl

/-! ### State.answerResetLine -/

@[simp] theorem State.answerResetLine_mem (s : State)  :
    (s.answerResetLine).mem = s.mem := rfl
@[simp] theorem State.answerResetLine_params (s : State)  :
    (s.answerResetLine).params = s.params := rfl
@[simp] theorem State.answerResetLine_ch (s : State)  :
    (s.answerResetLine).ch = List.replicate s.ch.length Channel.reset := rfl
@[simp] theorem State.answerResetLine_out (s : State)  :
    (s.answerResetLine).out = Frame.zero := rfl
@[simp] theorem State.answerResetLine_run (s : State)  :
    (s.answerResetLine).run = .halted := rfl
@[simp] theorem State.answerResetLine_fcause (s : State)  :
    (s.answerResetLine).fcause = .none := rfl
@[simp] theorem State.answerResetLine_fchan (s : State)  :
    (s.answerResetLine).fchan = 0 := rfl
@[simp] theorem State.answerResetLine_fpc (s : State)  :
    (s.answerResetLine).fpc = 0#16 := rfl
@[simp] theorem State.answerResetLine_phase (s : State)  :
    (s.answerResetLine).phase = .idle := rfl
@[simp] theorem State.answerResetLine_cur (s : State)  :
    (s.answerResetLine).cur = 0 := rfl
@[simp] theorem State.answerResetLine_port (s : State)  :
    (s.answerResetLine).port = s.port := rfl
@[simp] theorem State.answerResetLine_resetLine (s : State)  :
    (s.answerResetLine).resetLine = false := rfl
@[simp] theorem State.answerResetLine_statusLine (s : State)  :
    (s.answerResetLine).statusLine = s.statusLine := rfl
@[simp] theorem State.answerResetLine_sent (s : State)  :
    (s.answerResetLine).sent = s.sent := rfl
@[simp] theorem State.answerResetLine_fresh (s : State)  :
    (s.answerResetLine).fresh = s.fresh := rfl

/-! ### State.answerStatus -/

@[simp] theorem State.answerStatus_mem (s : State) :
    (s.answerStatus).mem = s.mem := rfl
@[simp] theorem State.answerStatus_params (s : State) :
    (s.answerStatus).params = s.params := rfl
@[simp] theorem State.answerStatus_ch (s : State) :
    (s.answerStatus).ch = s.ch := rfl
@[simp] theorem State.answerStatus_out (s : State) :
    (s.answerStatus).out = s.out := rfl
@[simp] theorem State.answerStatus_run (s : State) :
    (s.answerStatus).run = s.run := rfl
@[simp] theorem State.answerStatus_fcause (s : State) :
    (s.answerStatus).fcause = s.fcause := rfl
@[simp] theorem State.answerStatus_fchan (s : State) :
    (s.answerStatus).fchan = s.fchan := rfl
@[simp] theorem State.answerStatus_fpc (s : State) :
    (s.answerStatus).fpc = s.fpc := rfl
@[simp] theorem State.answerStatus_phase (s : State) :
    (s.answerStatus).phase = s.phase := rfl
@[simp] theorem State.answerStatus_cur (s : State) :
    (s.answerStatus).cur = s.cur := rfl
@[simp] theorem State.answerStatus_port (s : State) :
    (s.answerStatus).port = s.port := rfl
@[simp] theorem State.answerStatus_resetLine (s : State) :
    (s.answerStatus).resetLine = s.resetLine := rfl
@[simp] theorem State.answerStatus_statusLine (s : State) :
    (s.answerStatus).statusLine = s.statusLine := rfl
@[simp] theorem State.answerStatus_sent (s : State) :
    (s.answerStatus).sent = s.sent ++ [.status s.run s.fcause s.fchan s.fpc] := rfl
@[simp] theorem State.answerStatus_fresh (s : State) :
    (s.answerStatus).fresh = s.fresh := rfl

/-! ### State.answerStatusLine -/

@[simp] theorem State.answerStatusLine_mem (s : State) :
    (s.answerStatusLine).mem = s.mem := rfl
@[simp] theorem State.answerStatusLine_params (s : State) :
    (s.answerStatusLine).params = s.params := rfl
@[simp] theorem State.answerStatusLine_ch (s : State) :
    (s.answerStatusLine).ch = s.ch := rfl
@[simp] theorem State.answerStatusLine_out (s : State) :
    (s.answerStatusLine).out = s.out := rfl
@[simp] theorem State.answerStatusLine_run (s : State) :
    (s.answerStatusLine).run = s.run := rfl
@[simp] theorem State.answerStatusLine_fcause (s : State) :
    (s.answerStatusLine).fcause = s.fcause := rfl
@[simp] theorem State.answerStatusLine_fchan (s : State) :
    (s.answerStatusLine).fchan = s.fchan := rfl
@[simp] theorem State.answerStatusLine_fpc (s : State) :
    (s.answerStatusLine).fpc = s.fpc := rfl
@[simp] theorem State.answerStatusLine_phase (s : State) :
    (s.answerStatusLine).phase = s.phase := rfl
@[simp] theorem State.answerStatusLine_cur (s : State) :
    (s.answerStatusLine).cur = s.cur := rfl
@[simp] theorem State.answerStatusLine_port (s : State) :
    (s.answerStatusLine).port = s.port := rfl
@[simp] theorem State.answerStatusLine_resetLine (s : State) :
    (s.answerStatusLine).resetLine = s.resetLine := rfl
@[simp] theorem State.answerStatusLine_statusLine (s : State) :
    (s.answerStatusLine).statusLine = false := rfl
@[simp] theorem State.answerStatusLine_sent (s : State) :
    (s.answerStatusLine).sent = s.sent ++ [.status s.run s.fcause s.fchan s.fpc] := rfl
@[simp] theorem State.answerStatusLine_fresh (s : State) :
    (s.answerStatusLine).fresh = s.fresh := rfl

/-! ### State.loadParts -/

@[simp] theorem State.loadParts_mem (s : State) (p : ImageParts) :
    (s.loadParts p).mem = p.store s.mem := rfl
@[simp] theorem State.loadParts_ch (s : State) (p : ImageParts) :
    (s.loadParts p).ch = List.replicate p.stores.length Channel.reset := rfl
@[simp] theorem State.loadParts_out (s : State) (p : ImageParts) :
    (s.loadParts p).out = s.out := rfl
@[simp] theorem State.loadParts_run (s : State) (p : ImageParts) :
    (s.loadParts p).run = s.run := rfl
@[simp] theorem State.loadParts_fcause (s : State) (p : ImageParts) :
    (s.loadParts p).fcause = s.fcause := rfl
@[simp] theorem State.loadParts_fchan (s : State) (p : ImageParts) :
    (s.loadParts p).fchan = s.fchan := rfl
@[simp] theorem State.loadParts_fpc (s : State) (p : ImageParts) :
    (s.loadParts p).fpc = s.fpc := rfl
@[simp] theorem State.loadParts_phase (s : State) (p : ImageParts) :
    (s.loadParts p).phase = s.phase := rfl
@[simp] theorem State.loadParts_cur (s : State) (p : ImageParts) :
    (s.loadParts p).cur = s.cur := rfl
@[simp] theorem State.loadParts_port (s : State) (p : ImageParts) :
    (s.loadParts p).port = s.port := rfl
@[simp] theorem State.loadParts_resetLine (s : State) (p : ImageParts) :
    (s.loadParts p).resetLine = s.resetLine := rfl
@[simp] theorem State.loadParts_statusLine (s : State) (p : ImageParts) :
    (s.loadParts p).statusLine = s.statusLine := rfl
@[simp] theorem State.loadParts_sent (s : State) (p : ImageParts) :
    (s.loadParts p).sent = s.sent := rfl
@[simp] theorem State.loadParts_fresh (s : State) (p : ImageParts) :
    (s.loadParts p).fresh = s.fresh := rfl

/-- The parameters after an image is loaded: NINSTR and CODE_LEN are the image's. -/
@[simp] theorem State.loadParts_params (s : State) (p : ImageParts) :
    (s.loadParts p).params
      = { s.params with ninstr := p.ninstr, codeLen := p.stores.map List.length } := rfl

/-! ### State.raise -/

@[simp] theorem State.raise_mem (s : State) (cause : FaultCause) (pc0 : Word) :
    (s.raise cause pc0).mem = s.mem := by
  unfold State.raise; split <;> rfl
@[simp] theorem State.raise_params (s : State) (cause : FaultCause) (pc0 : Word) :
    (s.raise cause pc0).params = s.params := by
  unfold State.raise; split <;> rfl
@[simp] theorem State.raise_ch (s : State) (cause : FaultCause) (pc0 : Word) :
    (s.raise cause pc0).ch = s.ch := by
  unfold State.raise; split <;> rfl
@[simp] theorem State.raise_out (s : State) (cause : FaultCause) (pc0 : Word) :
    (s.raise cause pc0).out = s.out := by
  unfold State.raise; split <;> rfl
@[simp] theorem State.raise_cur (s : State) (cause : FaultCause) (pc0 : Word) :
    (s.raise cause pc0).cur = s.cur := by
  unfold State.raise; split <;> rfl
@[simp] theorem State.raise_port (s : State) (cause : FaultCause) (pc0 : Word) :
    (s.raise cause pc0).port = s.port := by
  unfold State.raise; split <;> rfl
@[simp] theorem State.raise_resetLine (s : State) (cause : FaultCause) (pc0 : Word) :
    (s.raise cause pc0).resetLine = s.resetLine := by
  unfold State.raise; split <;> rfl
@[simp] theorem State.raise_statusLine (s : State) (cause : FaultCause) (pc0 : Word) :
    (s.raise cause pc0).statusLine = s.statusLine := by
  unfold State.raise; split <;> rfl
@[simp] theorem State.raise_sent (s : State) (cause : FaultCause) (pc0 : Word) :
    (s.raise cause pc0).sent = s.sent := by
  unfold State.raise; split <;> rfl
@[simp] theorem State.raise_fresh (s : State) (cause : FaultCause) (pc0 : Word) :
    (s.raise cause pc0).fresh = s.fresh := by
  unfold State.raise; split <;> rfl

/-- Fault entry abandons the frame in progress (R204). -/
@[simp] theorem State.raise_phase (s : State) (cause : FaultCause) (pc0 : Word) :
    (s.raise cause pc0).phase = .idle := by
  unfold State.raise; split <;> rfl

/-- Fault entry while RUNNING, as one state (R204). -/
theorem State.raise_running {s : State} (h : s.run = .running) (cause : FaultCause) (pc0 : Word) :
    s.raise cause pc0 = s.faultedBy cause pc0 := by
  unfold State.raise; rw [if_pos h]; rfl

/-- Fault entry never leaves the block RUNNING. -/
theorem State.raise_run_ne (s : State) (cause : FaultCause) (pc0 : Word) :
    (s.raise cause pc0).run ≠ .running := by
  unfold State.raise; split <;> simp_all

/-- Writing the engine's channel is the statement's `withChannel`. -/
theorem State.setChan_eq_withChannel (s : State) (c : Channel) : s.setChan c = s.withChannel c := rfl

end Sys2Proof.Machine
end

