-- ==== Sys2Proof/Laws/Envelope.lean ====
section
/-! SUPPORT. The envelope operations, once each: which registers they leave alone, where the loop of SkipZeroStages goes,
and the numbers behind the narrowings (42_envelope_wavegen.md R141, R142; 41_instrument.md R128). -/

namespace Sys2Proof.Machine

/-! ### Narrowings -/

/-- A number that fits s32 comes back from the register that holds it. -/
theorem toInt_toLong {v : Int} (h : fitsS32 v = true) : (toLong v).toInt = v := by
  simp only [fitsS32, Bool.and_eq_true, decide_eq_true_eq] at h
  simp only [toLong, BitVec.toInt_ofInt]
  exact Int.bmod_eq_of_le (by omega) (by omega)

/-- Where the sum fits s32, the amplitude register holds it exactly (R34). -/
theorem toInt_addAmplitude {amp delta : Long} (h : fitsS32 (amp.toInt + delta.toInt) = true) :
    (addAmplitude amp delta).toInt = amp.toInt + delta.toInt := by
  rw [addAmplitude, if_pos h, toInt_toLong h]

/-- `NFL` counted down (R181). -/
theorem Channel.countFrame_nfl_toInt {c : Channel} (h : 1 ≤ c.nfl.toInt) :
    c.countFrame.nfl.toInt = c.nfl.toInt - 1 := by
  rw [Channel.countFrame_nfl]
  apply toInt_toLong
  have := c.nfl.toInt_lt
  simp [fitsS32]; omega

/-! ### The cursor's stage -/

/-- The cursor selects stage `k` exactly when it has its value (R37). -/
theorem Channel.stage_eq_some {c : Channel} {k : Fin 4} : c.stage = some k ↔ c.ecur.val = k.val := by
  unfold Channel.stage
  split
  · simp [Fin.ext_iff]
  · simp; omega

/-- No stage is selected exactly when every stage is finished (R37). -/
theorem Channel.stage_eq_none {c : Channel} : c.stage = none ↔ c.ecur = 4 := by
  have := c.ecur.isLt
  unfold Channel.stage
  split
  · simp [Fin.ext_iff]; omega
  · simp [Fin.ext_iff]; omega

/-- A stage is empty exactly when its count is 0. -/
theorem Channel.stageEmpty_iff {c : Channel} {k : Fin 4} : c.stageEmpty k = true ↔ c.efr.get k = 0#32 := by
  simp [Channel.stageEmpty]

/-! ### SkipZeroStages: one round, and what every round leaves alone -/

/-- One round of the loop (R141): at a stage with no frame left its deltas are applied and the cursor moves on. -/
theorem Channel.skipStages_succ_empty {c : Channel} {k : Fin 4} (n : Nat) (hk : c.stage = some k)
    (he : c.efr.get k = 0#32) : c.skipStages (n + 1) = ((c.applyDelta k).passStage k).skipStages n := by
  simp [Channel.skipStages, hk, Channel.stageEmpty_iff.2 he]

/-- The loop stops at a stage with a frame left. -/
theorem Channel.skipStages_of_frame {c : Channel} {k : Fin 4} (n : Nat) (hk : c.stage = some k)
    (he : c.efr.get k ≠ 0#32) : c.skipStages n = c := by
  cases n with
  | zero => rfl
  | succ n =>
    have : c.stageEmpty k = false := by simpa [Channel.stageEmpty] using he
    simp [Channel.skipStages, hk, this]

/-- The loop stops past the last stage. -/
theorem Channel.skipStages_of_done {c : Channel} (n : Nat) (hk : c.stage = none) : c.skipStages n = c := by
  cases n with
  | zero => rfl
  | succ n => simp [Channel.skipStages, hk]

/-- An invariant of one round is kept by the loop. -/
theorem Channel.skipStages_induct {P : Channel → Prop} (n : Nat) (c : Channel) (h0 : P c)
    (hs : ∀ u k, P u → u.stage = some k → u.efr.get k = 0#32 → P ((u.applyDelta k).passStage k)) :
    P (c.skipStages n) := by
  induction n generalizing c with
  | zero => exact h0
  | succ n ih =>
    cases hk : c.stage with
    | none => rw [Channel.skipStages_of_done _ hk]; exact h0
    | some k =>
      by_cases he : c.efr.get k = 0#32
      · rw [Channel.skipStages_succ_empty n hk he]; exact ih _ (hs c k h0 hk he)
      · rw [Channel.skipStages_of_frame _ hk he]; exact h0

/-- The loop changes the cursor and the amplitudes alone. -/
theorem Channel.skipStages_frame (n : Nat) (c : Channel) :
    c.skipStages n = { c with
      ecur := (c.skipStages n).ecur, ampL := (c.skipStages n).ampL, ampR := (c.skipStages n).ampR } := by
  refine Channel.skipStages_induct n c
    (P := fun u => u = { c with ecur := u.ecur, ampL := u.ampL, ampR := u.ampR }) rfl ?_
  intro u k hu _ _
  rw [hu]; rfl

/-- `SkipZeroStages` changes the cursor and the amplitudes alone. -/
theorem Channel.skipZeroStages_frame (c : Channel) :
    c.skipZeroStages = { c with
      ecur := c.skipZeroStages.ecur, ampL := c.skipZeroStages.ampL, ampR := c.skipZeroStages.ampR } :=
  Channel.skipStages_frame 4 c

@[simp] theorem Channel.skipZeroStages_pc (c : Channel) : c.skipZeroStages.pc = c.pc := by
  rw [Channel.skipZeroStages_frame c]

@[simp] theorem Channel.skipZeroStages_instr (c : Channel) : c.skipZeroStages.instr = c.instr := by
  rw [Channel.skipZeroStages_frame c]

@[simp] theorem Channel.skipZeroStages_wselc (c : Channel) : c.skipZeroStages.wselc = c.wselc := by
  rw [Channel.skipZeroStages_frame c]

@[simp] theorem Channel.skipZeroStages_wselm (c : Channel) : c.skipZeroStages.wselm = c.wselm := by
  rw [Channel.skipZeroStages_frame c]

@[simp] theorem Channel.skipZeroStages_nfl (c : Channel) : c.skipZeroStages.nfl = c.nfl := by
  rw [Channel.skipZeroStages_frame c]

@[simp] theorem Channel.skipZeroStages_cph (c : Channel) : c.skipZeroStages.cph = c.cph := by
  rw [Channel.skipZeroStages_frame c]

@[simp] theorem Channel.skipZeroStages_cstep (c : Channel) : c.skipZeroStages.cstep = c.cstep := by
  rw [Channel.skipZeroStages_frame c]

@[simp] theorem Channel.skipZeroStages_mph (c : Channel) : c.skipZeroStages.mph = c.mph := by
  rw [Channel.skipZeroStages_frame c]

@[simp] theorem Channel.skipZeroStages_mstep (c : Channel) : c.skipZeroStages.mstep = c.mstep := by
  rw [Channel.skipZeroStages_frame c]

@[simp] theorem Channel.skipZeroStages_panL (c : Channel) : c.skipZeroStages.panL = c.panL := by
  rw [Channel.skipZeroStages_frame c]

@[simp] theorem Channel.skipZeroStages_panR (c : Channel) : c.skipZeroStages.panR = c.panR := by
  rw [Channel.skipZeroStages_frame c]

@[simp] theorem Channel.skipZeroStages_efr (c : Channel) : c.skipZeroStages.efr = c.efr := by
  rw [Channel.skipZeroStages_frame c]

@[simp] theorem Channel.skipZeroStages_edl (c : Channel) : c.skipZeroStages.edl = c.edl := by
  rw [Channel.skipZeroStages_frame c]

@[simp] theorem Channel.skipZeroStages_edr (c : Channel) : c.skipZeroStages.edr = c.edr := by
  rw [Channel.skipZeroStages_frame c]

@[simp] theorem Channel.skipZeroStages_loop (c : Channel) : c.skipZeroStages.loop = c.loop := by
  rw [Channel.skipZeroStages_frame c]

/-- The loop, given rounds enough for the stages ahead, ends at a stage with a frame left or past the last (R141). -/
theorem Channel.skipStages_cursorOk (n : Nat) (c : Channel) (h : 4 ≤ n + c.ecur.val) :
    (c.skipStages n).CursorOk := by
  induction n generalizing c with
  | zero =>
    intro k hk
    rw [Channel.stage_eq_some] at hk
    change c.ecur.val = k.val at hk
    omega
  | succ n ih =>
    cases hk : c.stage with
    | none => rw [Channel.skipStages_of_done _ hk]; intro k h'; simp [hk] at h'
    | some k =>
      by_cases he : c.efr.get k = 0#32
      · rw [Channel.skipStages_succ_empty n hk he]
        apply ih
        have := Channel.stage_eq_some.1 hk
        show 4 ≤ n + k.succ.val
        simp only [Fin.val_succ]; omega
      · rw [Channel.skipStages_of_frame _ hk he]
        intro k' h'; rw [hk] at h'; cases h'; exact he

/-- More rounds than the stages ahead change nothing. -/
theorem Channel.skipStages_stable (n : Nat) (c : Channel) (h : 4 ≤ n + c.ecur.val) :
    c.skipStages (n + 1) = c.skipStages n := by
  induction n generalizing c with
  | zero =>
    have : c.ecur = 4 := by apply Fin.ext; have := c.ecur.isLt; show c.ecur.val = 4; omega
    rw [Channel.skipStages_of_done _ (Channel.stage_eq_none.2 this),
      Channel.skipStages_of_done _ (Channel.stage_eq_none.2 this)]
  | succ n ih =>
    cases hk : c.stage with
    | none => rw [Channel.skipStages_of_done _ hk, Channel.skipStages_of_done _ hk]
    | some k =>
      by_cases he : c.efr.get k = 0#32
      · rw [Channel.skipStages_succ_empty _ hk he, Channel.skipStages_succ_empty _ hk he]
        apply ih
        have := Channel.stage_eq_some.1 hk
        show 4 ≤ n + k.succ.val
        simp only [Fin.val_succ]; omega
      · rw [Channel.skipStages_of_frame _ hk he, Channel.skipStages_of_frame _ hk he]

/-! ### EnvelopeTick: the registers it leaves alone (R142) -/

@[simp] theorem Channel.envelopeTick_pc (c : Channel) (k : Fin 4) : (c.envelopeTick k).pc = c.pc := by
  unfold Channel.envelopeTick; dsimp only; split <;> simp

@[simp] theorem Channel.envelopeTick_instr (c : Channel) (k : Fin 4) : (c.envelopeTick k).instr = c.instr := by
  unfold Channel.envelopeTick; dsimp only; split <;> simp

@[simp] theorem Channel.envelopeTick_wselc (c : Channel) (k : Fin 4) : (c.envelopeTick k).wselc = c.wselc := by
  unfold Channel.envelopeTick; dsimp only; split <;> simp

@[simp] theorem Channel.envelopeTick_wselm (c : Channel) (k : Fin 4) : (c.envelopeTick k).wselm = c.wselm := by
  unfold Channel.envelopeTick; dsimp only; split <;> simp

@[simp] theorem Channel.envelopeTick_nfl (c : Channel) (k : Fin 4) : (c.envelopeTick k).nfl = c.nfl := by
  unfold Channel.envelopeTick; dsimp only; split <;> simp

@[simp] theorem Channel.envelopeTick_cph (c : Channel) (k : Fin 4) : (c.envelopeTick k).cph = c.cph := by
  unfold Channel.envelopeTick; dsimp only; split <;> simp

@[simp] theorem Channel.envelopeTick_cstep (c : Channel) (k : Fin 4) : (c.envelopeTick k).cstep = c.cstep := by
  unfold Channel.envelopeTick; dsimp only; split <;> simp

@[simp] theorem Channel.envelopeTick_mph (c : Channel) (k : Fin 4) : (c.envelopeTick k).mph = c.mph := by
  unfold Channel.envelopeTick; dsimp only; split <;> simp

@[simp] theorem Channel.envelopeTick_mstep (c : Channel) (k : Fin 4) : (c.envelopeTick k).mstep = c.mstep := by
  unfold Channel.envelopeTick; dsimp only; split <;> simp

@[simp] theorem Channel.envelopeTick_panL (c : Channel) (k : Fin 4) : (c.envelopeTick k).panL = c.panL := by
  unfold Channel.envelopeTick; dsimp only; split <;> simp

@[simp] theorem Channel.envelopeTick_panR (c : Channel) (k : Fin 4) : (c.envelopeTick k).panR = c.panR := by
  unfold Channel.envelopeTick; dsimp only; split <;> simp

@[simp] theorem Channel.envelopeTick_efr (c : Channel) (k : Fin 4) :
    (c.envelopeTick k).efr = c.efr.set k.val (c.efr.get k - 1#32) := by
  unfold Channel.envelopeTick; dsimp only; split <;> simp

@[simp] theorem Channel.envelopeTick_edl (c : Channel) (k : Fin 4) : (c.envelopeTick k).edl = c.edl := by
  unfold Channel.envelopeTick; dsimp only; split <;> simp

@[simp] theorem Channel.envelopeTick_edr (c : Channel) (k : Fin 4) : (c.envelopeTick k).edr = c.edr := by
  unfold Channel.envelopeTick; dsimp only; split <;> simp

@[simp] theorem Channel.envelopeTick_loop (c : Channel) (k : Fin 4) : (c.envelopeTick k).loop = c.loop := by
  unfold Channel.envelopeTick; dsimp only; split <;> simp

/-- The counted stage's register after the count. -/
theorem get_set_same (v : Vector Long 4) (k : Fin 4) (x : Long) : (v.set k.val x).get k = x := by
  simp [Vector.get_eq_getElem]

/-- The other stages' registers after the count. -/
theorem get_set_other (v : Vector Long 4) {k j : Fin 4} (x : Long) (h : j ≠ k) :
    (v.set k.val x).get j = v.get j := by
  have : k.val ≠ j.val := fun e => h (Fin.ext e.symm)
  simp [Vector.get_eq_getElem, Vector.getElem_set_ne, this]

/-! ### The fresh note: the registers `BEAT` leaves alone (R164) -/

/-- Settling the phases touches the phases alone. -/
theorem Channel.settlePhases_frame (w : Word) (c : Channel) :
    c.settlePhases w = { c with cph := (c.settlePhases w).cph, mph := (c.settlePhases w).mph } := by
  unfold Channel.settlePhases; split <;> rfl

@[simp] theorem Channel.settlePhases_pc (w : Word) (c : Channel) : (c.settlePhases w).pc = c.pc := by
  rw [Channel.settlePhases_frame w c]

@[simp] theorem Channel.settlePhases_instr (w : Word) (c : Channel) : (c.settlePhases w).instr = c.instr := by
  rw [Channel.settlePhases_frame w c]

@[simp] theorem Channel.settlePhases_wselc (w : Word) (c : Channel) : (c.settlePhases w).wselc = c.wselc := by
  rw [Channel.settlePhases_frame w c]

@[simp] theorem Channel.settlePhases_wselm (w : Word) (c : Channel) : (c.settlePhases w).wselm = c.wselm := by
  rw [Channel.settlePhases_frame w c]

@[simp] theorem Channel.settlePhases_nfl (w : Word) (c : Channel) : (c.settlePhases w).nfl = c.nfl := by
  rw [Channel.settlePhases_frame w c]

@[simp] theorem Channel.settlePhases_cstep (w : Word) (c : Channel) : (c.settlePhases w).cstep = c.cstep := by
  rw [Channel.settlePhases_frame w c]

@[simp] theorem Channel.settlePhases_mstep (w : Word) (c : Channel) : (c.settlePhases w).mstep = c.mstep := by
  rw [Channel.settlePhases_frame w c]

@[simp] theorem Channel.settlePhases_panL (w : Word) (c : Channel) : (c.settlePhases w).panL = c.panL := by
  rw [Channel.settlePhases_frame w c]

@[simp] theorem Channel.settlePhases_panR (w : Word) (c : Channel) : (c.settlePhases w).panR = c.panR := by
  rw [Channel.settlePhases_frame w c]

@[simp] theorem Channel.settlePhases_ampL (w : Word) (c : Channel) : (c.settlePhases w).ampL = c.ampL := by
  rw [Channel.settlePhases_frame w c]

@[simp] theorem Channel.settlePhases_ampR (w : Word) (c : Channel) : (c.settlePhases w).ampR = c.ampR := by
  rw [Channel.settlePhases_frame w c]

@[simp] theorem Channel.settlePhases_efr (w : Word) (c : Channel) : (c.settlePhases w).efr = c.efr := by
  rw [Channel.settlePhases_frame w c]

@[simp] theorem Channel.settlePhases_edl (w : Word) (c : Channel) : (c.settlePhases w).edl = c.edl := by
  rw [Channel.settlePhases_frame w c]

@[simp] theorem Channel.settlePhases_edr (w : Word) (c : Channel) : (c.settlePhases w).edr = c.edr := by
  rw [Channel.settlePhases_frame w c]

@[simp] theorem Channel.settlePhases_ecur (w : Word) (c : Channel) : (c.settlePhases w).ecur = c.ecur := by
  rw [Channel.settlePhases_frame w c]

@[simp] theorem Channel.settlePhases_loop (w : Word) (c : Channel) : (c.settlePhases w).loop = c.loop := by
  rw [Channel.settlePhases_frame w c]

@[simp] theorem Channel.startNote_pc (o : BeatOperands) (len n : Nat) (c : Channel) :
    (c.startNote o len n).pc = c.pc := by
  simp [Channel.startNote]

@[simp] theorem Channel.startNote_instr (o : BeatOperands) (len n : Nat) (c : Channel) :
    (c.startNote o len n).instr = c.instr := by
  simp [Channel.startNote]

@[simp] theorem Channel.startNote_wselc (o : BeatOperands) (len n : Nat) (c : Channel) :
    (c.startNote o len n).wselc = c.wselc := by
  simp [Channel.startNote]

@[simp] theorem Channel.startNote_wselm (o : BeatOperands) (len n : Nat) (c : Channel) :
    (c.startNote o len n).wselm = c.wselm := by
  simp [Channel.startNote]

@[simp] theorem Channel.startNote_cstep (o : BeatOperands) (len n : Nat) (c : Channel) :
    (c.startNote o len n).cstep = c.cstep := by
  simp [Channel.startNote]

@[simp] theorem Channel.startNote_mstep (o : BeatOperands) (len n : Nat) (c : Channel) :
    (c.startNote o len n).mstep = c.mstep := by
  simp [Channel.startNote]

@[simp] theorem Channel.startNote_panL (o : BeatOperands) (len n : Nat) (c : Channel) :
    (c.startNote o len n).panL = c.panL := by
  simp [Channel.startNote]

@[simp] theorem Channel.startNote_panR (o : BeatOperands) (len n : Nat) (c : Channel) :
    (c.startNote o len n).panR = c.panR := by
  simp [Channel.startNote]

@[simp] theorem Channel.startNote_loop (o : BeatOperands) (len n : Nat) (c : Channel) :
    (c.startNote o len n).loop = c.loop := by
  simp [Channel.startNote]

@[simp] theorem Channel.startNote_nfl (o : BeatOperands) (len n : Nat) (c : Channel) :
    (c.startNote o len n).nfl = nflOf n len := by
  simp [Channel.startNote]

@[simp] theorem Channel.startNote_efr (o : BeatOperands) (len n : Nat) (c : Channel) :
    (c.startNote o len n).efr = stageRegs (n + 1) (o.counts len) := by
  simp [Channel.startNote]

@[simp] theorem Channel.startNote_edl (o : BeatOperands) (len n : Nat) (c : Channel) :
    (c.startNote o len n).edl = laneDeltas (o.counts len) o.peak o.sus c.panL := by
  simp [Channel.startNote]

@[simp] theorem Channel.startNote_edr (o : BeatOperands) (len n : Nat) (c : Channel) :
    (c.startNote o len n).edr = laneDeltas (o.counts len) o.peak o.sus c.panR := by
  simp [Channel.startNote]

@[simp] theorem Channel.startNote_ecur (o : BeatOperands) (len n : Nat) (c : Channel) :
    (c.startNote o len n).ecur = (c.freshNote o len n).skipZeroStages.ecur := by
  simp [Channel.startNote]

@[simp] theorem Channel.startNote_ampL (o : BeatOperands) (len n : Nat) (c : Channel) :
    (c.startNote o len n).ampL = (c.freshNote o len n).skipZeroStages.ampL := by
  simp [Channel.startNote]

@[simp] theorem Channel.startNote_ampR (o : BeatOperands) (len n : Nat) (c : Channel) :
    (c.startNote o len n).ampR = (c.freshNote o len n).skipZeroStages.ampR := by
  simp [Channel.startNote]

end Sys2Proof.Machine
end

