-- ==== Sys2Proof/Laws/Exec.lean ====
section
/-! SUPPORT. For each shared operation and each command, once, everything it can do: "if it answers a next state, then one
of these cases holds", and where it can stop. Later proofs cite these and unfold no meaning. -/

namespace Sys2Proof.Machine

/-! ### The shared operations -/

theorem State.onChan_of_chan {s : State} {c : Channel} (h : s.chan = some c) (k : Channel → Out) :
    s.onChan k = k c := by
  simp [State.onChan, h]

theorem State.onChan_next {s t : State} {k : Channel → Out} (h : s.onChan k = .next t) :
    ∃ c, s.chan = some c ∧ k c = .next t := by
  unfold State.onChan at h
  split at h
  · exact ⟨_, ‹_›, h⟩
  · cases h

theorem State.onChan_fault {s : State} {k : Channel → Out} {f : Fault} (h : s.onChan k = .fault f) :
    (s.chan = none ∧ f = .noSuchChannel) ∨ ∃ c, s.chan = some c ∧ k c = .fault f := by
  unfold State.onChan at h
  split at h
  · exact .inr ⟨_, ‹_›, h⟩
  · cases h; exact .inl ⟨‹_›, rfl⟩

theorem reading_next {α : Type} {o : Option α} {k : α → Out} {t : State} (h : reading o k = .next t) :
    ∃ a, o = some a ∧ k a = .next t := by
  cases o with
  | none => cases h
  | some a => exact ⟨a, rfl, h⟩

theorem reading_fault {α : Type} {o : Option α} {k : α → Out} {f : Fault} (h : reading o k = .fault f) :
    (o = none ∧ f = .unloadedTuneWord) ∨ ∃ a, o = some a ∧ k a = .fault f := by
  cases o with
  | none => cases h; exact .inl ⟨rfl, rfl⟩
  | some a => exact .inr ⟨a, rfl, h⟩

/-- A channel that exists stands below the number of channels. -/
theorem State.chan_lt {s : State} {c : Channel} (h : s.chan = some c) : s.cur < s.ch.length := by
  unfold State.chan at h
  exact (List.getElem?_eq_some_iff.1 h).1

/-- A channel that exists is one of the list. -/
theorem State.chan_mem {s : State} {c : Channel} (h : s.chan = some c) : c ∈ s.ch :=
  List.mem_of_getElem? h

/-- After the write the engine's channel is the written one. -/
theorem State.chan_setChan {s : State} {c : Channel} (h : s.chan = some c) (c' : Channel) :
    (s.setChan c').chan = some c' := by
  simp [State.chan, State.setChan, State.chan_lt h]

/-- Writing the registers back unchanged changes nothing. -/
theorem State.setChan_self {s : State} {c : Channel} (h : s.chan = some c) : s.setChan c = s := by
  unfold State.chan at h
  obtain ⟨hl, he⟩ := List.getElem?_eq_some_iff.1 h
  have : s.ch.set s.cur c = s.ch := by rw [← he]; exact List.set_getElem_self hl
  simp [State.setChan, this]

/-! ### The commands -/

/-- All that `NOTE` can do (R162). -/
theorem execNote_next {pitch : BitVec 8} {s t : State} (h : execNote pitch s = .next t) :
    ∃ c, s.chan = some c ∧
      ((∃ cs ms, t = s.setChan (c.setSteps cs ms).advance) ∨ ∃ cause, t = s.raise cause c.pc) := by
  obtain ⟨c, hc, h⟩ := State.onChan_next h
  refine ⟨c, hc, ?_⟩
  split at h
  · cases h; exact .inl ⟨_, _, rfl⟩
  · split at h
    · obtain ⟨o, -, h⟩ := reading_next h
      split at h
      · cases h; exact .inl ⟨_, _, rfl⟩
      · cases h; exact .inr ⟨_, rfl⟩
    · cases h; exact .inr ⟨_, rfl⟩

/-- All that `SETI` can do (R163). -/
theorem execSeti_next {index : BitVec 12} {s t : State} (h : execSeti index s = .next t) :
    ∃ c, s.chan = some c ∧
      ((∃ a b, s.instrValid index = true ∧ t = s.setChan (c.setInstr index a b).advance) ∨
        ∃ cause, t = s.raise cause c.pc) := by
  obtain ⟨c, hc, h⟩ := State.onChan_next h
  refine ⟨c, hc, ?_⟩
  split at h
  · rename_i hv
    obtain ⟨w, -, h⟩ := reading_next h
    split at h
    · cases h; exact .inl ⟨_, _, hv, rfl⟩
    · cases h; exact .inr ⟨_, rfl⟩
  · cases h; exact .inr ⟨_, rfl⟩

/-- All that `BEAT` can do (R164). -/
theorem execBeat_next {count : BitVec 12} {s t : State} (h : execBeat count s = .next t) :
    ∃ c, s.chan = some c ∧
      ((∃ o, s.instrValid c.instr = true ∧ s.beatOperands c.instr = some o ∧
          t = s.beginNote c o (o.noteFrames count)) ∨
        ∃ cause, t = s.raise cause c.pc) := by
  obtain ⟨c, hc, h⟩ := State.onChan_next h
  refine ⟨c, hc, ?_⟩
  split at h
  · rename_i hv
    obtain ⟨o, ho, h⟩ := reading_next h
    cases h; exact .inl ⟨o, hv, ho, rfl⟩
  · cases h; exact .inr ⟨_, rfl⟩

/-- All that `JUMP` can do (R165). -/
theorem execJump_next {target : BitVec 12} {s t : State} (h : execJump target s = .next t) :
    ∃ c, s.chan = some c ∧ t = s.setChan (c.setPc (targetWord target)) := by
  obtain ⟨c, hc, h⟩ := State.onChan_next h
  cases h; exact ⟨c, hc, rfl⟩

/-- All that `REPT` can do (R166). -/
theorem execRept_next {count : BitVec 12} {s t : State} (h : execRept count s = .next t) :
    ∃ c, s.chan = some c ∧ t = s.setChan (c.repeatStep count) := by
  obtain ⟨c, hc, h⟩ := State.onChan_next h
  cases h; exact ⟨c, hc, rfl⟩

/-- All that `PAN` can do (R167). -/
theorem execPan_next {offset : BitVec 8} {s t : State} (h : execPan offset s = .next t) :
    ∃ c, s.chan = some c ∧
      t = s.setChan (c.setPan (BitVec.ofInt 9 (panLeft (offsetValue offset)))
        (BitVec.ofInt 9 (panRight (offsetValue offset)))).advance := by
  obtain ⟨c, hc, h⟩ := State.onChan_next h
  cases h; exact ⟨c, hc, rfl⟩

/-- Where a command can stop: only at a channel that does not exist, or at a tune word that was never loaded. -/
theorem exec_fault {i : Instr} {s : State} {f : Fault} (h : exec i s = .fault f) :
    (s.chan = none ∧ f = .noSuchChannel) ∨ f = .unloadedTuneWord := by
  cases i with
  | note pitch =>
    rcases State.onChan_fault h with h | ⟨c, -, h⟩
    · exact .inl h
    · split at h
      · cases h
      · split at h
        · rcases reading_fault h with ⟨-, h⟩ | ⟨o, -, h⟩
          · exact .inr h
          · split at h <;> cases h
        · cases h
  | seti index =>
    rcases State.onChan_fault h with h | ⟨c, -, h⟩
    · exact .inl h
    · split at h
      · rcases reading_fault h with ⟨-, h⟩ | ⟨o, -, h⟩
        · exact .inr h
        · split at h <;> cases h
      · cases h
  | beat count =>
    rcases State.onChan_fault h with h | ⟨c, -, h⟩
    · exact .inl h
    · split at h
      · rcases reading_fault h with ⟨-, h⟩ | ⟨o, -, h⟩
        · exact .inr h
        · cases h
      · cases h
  | jump target =>
    rcases State.onChan_fault h with h | ⟨c, -, h⟩
    · exact .inl h
    · cases h
  | rept count =>
    rcases State.onChan_fault h with h | ⟨c, -, h⟩
    · exact .inl h
    · cases h
  | pan offset =>
    rcases State.onChan_fault h with h | ⟨c, -, h⟩
    · exact .inl h
    · cases h

/-- The channel after `REPT` differs in `LOOP` and `PC` alone, and `PC` moves on by one or two (R166). -/
theorem Channel.repeatStep_cases (c : Channel) (count : BitVec 12) :
    (c.loop = 0#12 ∧ c.repeatStep count = { c with loop := count, pc := c.pc + 1#16 }) ∨
    (c.loop = 1#12 ∧ c.repeatStep count = { c with loop := 0#12, pc := c.pc + 2#16 }) ∨
    (c.loop ≠ 0#12 ∧ c.loop ≠ 1#12 ∧
      c.repeatStep count = { c with loop := c.loop - 1#12, pc := c.pc + 1#16 }) := by
  by_cases h0 : c.loop = 0#12
  · exact .inl ⟨h0, by simp [Channel.repeatStep, Channel.loopIdle, h0, Channel.setLoop, Channel.advance, Channel.setPc]⟩
  · by_cases h1 : c.loop = 1#12
    · exact .inr (.inl ⟨h1, by
        simp [Channel.repeatStep, Channel.loopIdle, h1, Channel.setLoop, Channel.setPc]⟩)
    · have h2 : c.loop - 1#12 ≠ 0#12 := by
        intro e
        apply h1
        have := congrArg (· + 1#12) e
        simpa using this
      exact .inr (.inr ⟨h0, h1, by
        simp [Channel.repeatStep, Channel.loopIdle, h0, h2, Channel.setLoop, Channel.advance, Channel.setPc]⟩)

end Sys2Proof.Machine
end

