-- ==== Sys2Proof/Laws/Memory.lean ====
section
/-! SUPPORT. The laws of the tune store's memory: a read after a write, the canonical form kept by every operation, words
over bytes, and that the spaces of R60 do not overlap. -/

namespace Sys2Proof.Machine

/-! ### Bytes -/

@[simp] theorem Memory.read_write_same (m : Memory) (a : Nat) (b : Byte) : (m.write a b).read a = some b := by
  induction m with
  | nil => simp [Memory.write, Memory.read]
  | cons x rest ih =>
    obtain ⟨k, v⟩ := x
    simp only [Memory.write]
    split
    · simp [Memory.read]
    · split
      · simp [Memory.read]
      · rename_i h1 h2
        simp [Memory.read, Ne.symm h2, ih]

theorem Memory.read_write_other (m : Memory) {a x : Nat} (b : Byte) (h : x ≠ a) :
    (m.write a b).read x = m.read x := by
  induction m with
  | nil => simp [Memory.write, Memory.read, Ne.symm h]
  | cons y rest ih =>
    obtain ⟨k, v⟩ := y
    simp only [Memory.write]
    split
    · simp [Memory.read, Ne.symm h]
    · split
      · rename_i h2; subst h2; simp [Memory.read, Ne.symm h]
      · simp [Memory.read, ih]

/-! ### The canonical form -/

/-- The canonical form of a memory with a first entry: the tail is canonical and lies above it. -/
theorem Memory.wf_cons {x : Host.Cell} {rest : Memory} :
    Memory.wf (x :: rest) = true ↔ Memory.wf rest = true ∧ ∀ y ∈ rest.head?, x.1 < y.1 := by
  cases rest with
  | nil => simp [Memory.wf]
  | cons y ys => simp [Memory.wf, and_comm]

/-- The first address after a write: the written one, or the old first one. -/
theorem Memory.write_head (m : Memory) (a : Nat) (b : Byte) :
    ∀ y ∈ (m.write a b).head?, y.1 = a ∨ ∃ z ∈ m.head?, y.1 = z.1 := by
  cases m with
  | nil => simp [Memory.write]
  | cons x rest =>
    obtain ⟨k, v⟩ := x
    simp only [Memory.write]
    split
    · simp
    · split
      · simp
      · simp

/-- Writing a byte keeps the canonical form. -/
theorem Memory.write_wf {m : Memory} (a : Nat) (b : Byte) (h : m.wf = true) : (m.write a b).wf = true := by
  induction m with
  | nil => simp [Memory.write, Memory.wf]
  | cons x rest ih =>
    obtain ⟨k, v⟩ := x
    obtain ⟨hr, hh⟩ := Memory.wf_cons.1 h
    simp only [Memory.write]
    split
    · rename_i h1
      exact Memory.wf_cons.2 ⟨h, by simpa using h1⟩
    · split
      · rename_i h2; subst h2
        exact Memory.wf_cons.2 ⟨hr, hh⟩
      · rename_i h1 h2
        refine Memory.wf_cons.2 ⟨ih hr, fun y hy => ?_⟩
        rcases Memory.write_head rest a b y hy with e | ⟨z, hz, e⟩
        · simp only [e]; omega
        · rw [e]; exact hh z hz

theorem Memory.writeWord_wf {m : Memory} (a : Nat) (w : Word) (h : m.wf = true) : (m.writeWord a w).wf = true :=
  Memory.write_wf _ _ (Memory.write_wf _ _ h)

theorem Memory.writeWords_wf {m : Memory} (a : Nat) (ws : List Word) (h : m.wf = true) :
    (m.writeWords a ws).wf = true := by
  induction ws generalizing m a with
  | nil => exact h
  | cons w ws ih => exact ih _ (Memory.writeWord_wf a w h)

theorem writeStores_wf {m : Memory} (c : Nat) (stores : List (List Word)) (h : m.wf = true) :
    (writeStores m c stores).wf = true := by
  induction stores generalizing m c with
  | nil => exact h
  | cons ws rest ih => exact ih _ (Memory.writeWords_wf _ ws h)

theorem ImageParts.store_wf (p : ImageParts) {m : Memory} (h : m.wf = true) : (p.store m).wf = true :=
  writeStores_wf _ _ (Memory.writeWords_wf _ _ (Memory.writeWords_wf _ _ h))

/-- A LOAD keeps the canonical form. -/
theorem State.load_wf (s : State) (item : LoadItem) (h : s.mem.wf = true) : (s.load item).mem.wf = true := by
  cases item with
  | word a w =>
    simp only [State.load]
    split
    · exact Memory.writeWord_wf _ _ h
    · exact h
  | image ws =>
    simp only [State.load]
    split
    · exact ImageParts.store_wf _ h
    · exact h

/-- The memory at power-on is canonical. -/
theorem State.powerOn_wf (p : Params) (n : Nat) : (State.powerOn p n).mem.wf = true := rfl

/-- The memory of `State.reset` is canonical. -/
theorem State.reset_wf : State.reset.mem.wf = true := rfl

/-! ### Words over bytes -/

/-- The two bytes of a word make it again (R65). -/
@[simp] theorem wordOfBytes_low_high (w : Word) : wordOfBytes (lowByte w) (highByte w) = w := by
  apply BitVec.eq_of_getLsbD_eq
  intro i hi
  simp only [wordOfBytes, lowByte, highByte, BitVec.getLsbD_append, BitVec.getLsbD_extractLsb']
  split
  · rename_i h; simp [h]
  · rename_i h
    have h8 : i - 8 < 8 := by omega
    have e : 8 + (i - 8) = i := by omega
    simp [h8, e]

/-- A word written is read back. -/
@[simp] theorem Memory.readWord_writeWord_same (m : Memory) (a : Nat) (w : Word) :
    (m.writeWord a w).readWord a = some w := by
  have h : (m.writeWord a w).read a = some (lowByte w) := by
    rw [Memory.writeWord, Memory.read_write_other _ _ (by omega), Memory.read_write_same]
  have h2 : (m.writeWord a w).read (a + 1) = some (highByte w) := by
    rw [Memory.writeWord, Memory.read_write_same]
  simp [Memory.readWord, h, h2]

/-- A word that does not overlap a written one stays. -/
theorem Memory.readWord_writeWord_other (m : Memory) {a x : Nat} (w : Word) (h : x + 1 < a ∨ a + 1 < x) :
    (m.writeWord a w).readWord x = m.readWord x := by
  have h1 : (m.writeWord a w).read x = m.read x := by
    rw [Memory.writeWord, Memory.read_write_other _ _ (by omega), Memory.read_write_other _ _ (by omega)]
  have h2 : (m.writeWord a w).read (x + 1) = m.read (x + 1) := by
    rw [Memory.writeWord, Memory.read_write_other _ _ (by omega), Memory.read_write_other _ _ (by omega)]
  simp [Memory.readWord, h1, h2]

/-- A word outside a written block stays. -/
theorem Memory.readWord_writeWords_other (m : Memory) (ws : List Word) {a x : Nat}
    (h : x + 1 < a ∨ a + 2 * ws.length ≤ x) : (m.writeWords a ws).readWord x = m.readWord x := by
  induction ws generalizing m a with
  | nil => rfl
  | cons w ws ih =>
    simp only [List.length_cons] at h
    rw [Memory.writeWords, ih _ (by omega), Memory.readWord_writeWord_other _ _ (by omega)]

/-- Each word of a written block is read back. -/
theorem Memory.readWord_writeWords_same (m : Memory) (ws : List Word) {a k : Nat} (h : k < ws.length) :
    (m.writeWords a ws).readWord (a + 2 * k) = ws[k]? := by
  induction ws generalizing m a k with
  | nil => simp at h
  | cons w ws ih =>
    rw [Memory.writeWords]
    cases k with
    | zero => rw [Memory.readWord_writeWords_other _ _ (by omega)]; simp
    | succ k =>
      have e : a + 2 * (k + 1) = a + 2 + 2 * k := by omega
      rw [e, ih _ (by simpa using h)]; simp

/-! ### The spaces of R60 do not overlap (assumption 8) -/

/-- The configuration words lie below every record. -/
theorem cfg_below_instr (i j : Nat) : Config.cfgBase + 8 ≤ instrAddr i j := by
  simp only [Config.cfgBase, instrAddr, Config.instrBase]; omega

/-- Every record of a table within R4 lies below every command store. -/
theorem instr_below_code {i j : Nat} (hi : i < 4096) (hj : j < 9) (c k : Nat) :
    instrAddr i j + 2 ≤ codeAddr c k := by
  simp only [instrAddr, codeAddr, Config.instrBase, Config.codeBase]; omega

/-- Different commands of stores within R4 lie at different places. -/
theorem codeAddr_inj {c k c' k' : Nat} (hk : k < 4096) (hk' : k' < 4096) (h : codeAddr c k = codeAddr c' k') :
    c = c' ∧ k = k' := by
  simp only [codeAddr, Config.codeBase, Config.codeStride] at h; omega

end Sys2Proof.Machine
end

