-- ==== Sys2Proof/Laws/Image.lean ====
section
/-! SUPPORT. The image of a tune (20_memory.md R64) and its parts: an image within its limits is parsed into the parts of
its tune, so loading it is loading them; and what a launched tune leaves, for any number of channels. -/

namespace Sys2Proof.Machine

/-- The command stores of an image are parsed back, each of at most 4096 words. -/
theorem parseStores_imageStores (stores : List (List Word)) (h : ∀ ws ∈ stores, ws.length ≤ 4096) :
    parseStores stores.length (stores.map imageStore).flatten = some (stores, []) := by
  induction stores with
  | nil => rfl
  | cons ws rest ih =>
    have hl : ws.length ≤ 4096 := h ws List.mem_cons_self
    have hn : (BitVec.ofNat 16 ws.length).toNat = ws.length := by
      rw [BitVec.toNat_ofNat]; omega
    have := ih fun x hx => h x (List.mem_cons_of_mem _ hx)
    simp [parseStores, imageStore, hn, hl, this, Config.indexLimit]

/-- The records of a tune are nine words each (R63). -/
@[simp] theorem tuneParts_records_length (t : Tune) :
    (tuneParts t).records.length = 9 * t.instruments.length := by
  simp only [tuneParts]
  induction t.instruments with
  | nil => rfl
  | cons ins rest ih =>
    have hn : (packInstrument ins).length = 9 := rfl
    simp only [List.map_cons, List.flatten_cons, List.length_append, List.length_cons, ih, hn]
    omega

/-- An image of fewer than 65536 channels, within R4, is parsed into the parts of its tune (R64). -/
theorem parseImage_tuneImage {t : Tune} (hi : t.instruments.length ≤ 4096) (hc : t.code.length < 65536)
    (hs : ∀ code ∈ t.code, code.length ≤ 4096) : parseImage (tuneImage t) = some (tuneParts t) := by
  have hi' : (BitVec.ofNat 16 t.instruments.length).toNat = t.instruments.length := by
    rw [BitVec.toNat_ofNat]; omega
  have hc' : (BitVec.ofNat 16 t.code.length).toNat = t.code.length := by
    rw [BitVec.toNat_ofNat]; omega
  have hr := tuneParts_records_length t
  have e : tuneImage t
      = lowHalf t.sampleRate :: highHalf t.sampleRate :: lowHalf t.beatLen :: highHalf t.beatLen ::
        BitVec.ofNat 16 t.instruments.length :: BitVec.ofNat 16 t.code.length ::
        ((tuneParts t).records ++ (t.code.map imageStore).flatten) := by
    simp [tuneImage, tuneParts]
  rw [e, parseImage, hi', hc', if_pos ⟨hi, by simp [hr]⟩, List.drop_left' hr, List.take_left' hr,
    parseStores_imageStores _ hs]
  rfl

/-- Loading such an image is loading the parts of its tune. -/
theorem State.load_tuneImage (s : State) {t : Tune} (hi : t.instruments.length ≤ 4096)
    (hc : t.code.length < 65536) (hs : ∀ code ∈ t.code, code.length ≤ 4096) :
    s.load (.image (tuneImage t)) = s.loadParts (tuneParts t) := by
  simp [State.load, parseImage_tuneImage hi hc hs]

/-- A launched tune has a channel for each of its stores, however many they are. -/
@[simp] theorem State.launched_ch (p : Params) (t : Tune) :
    (State.launched p t).ch = List.replicate t.code.length Channel.reset := rfl

@[simp] theorem State.launched_run (p : Params) (t : Tune) : (State.launched p t).run = .running := rfl

@[simp] theorem State.launched_params (p : Params) (t : Tune) :
    (State.launched p t).params
      = { p with ninstr := t.instruments.length, codeLen := t.code.map List.length } := rfl

@[simp] theorem State.launched_mem (p : Params) (t : Tune) :
    (State.launched p t).mem = (tuneParts t).store [] := rfl

end Sys2Proof.Machine
end

