-- ==== Sys2Proof/Laws/Step.lean ====
section
/-! SUPPORT. One step, once: which action the engine or the host takes, and every way it can end. -/

namespace Sys2Proof.Machine

/-- The engine is inside `EngineFrame` exactly when RUNNING and not between frames. -/
theorem State.busy_iff (s : State) : s.busy = true ↔ s.run = .running ∧ s.phase ≠ .idle := by
  simp [State.busy]

/-- All that the head of `ChannelFrame` can do (R181). -/
theorem State.channelHead_next {s t : State} (h : s.channelHead = .next t) :
    ∃ c, s.chan = some c ∧
      ((c.generating = false ∧ t = { s with phase := .execute false }) ∨
        (c.generating = true ∧ ∃ o c1, s.renderOrSkip c = .ok (o, c1) ∧
          t = { s.setChan c1.countFrame with out := o, phase := afterFrame c1.countFrame })) := by
  obtain ⟨c, hc, h⟩ := State.onChan_next h
  refine ⟨c, hc, ?_⟩
  split at h
  · rename_i hg
    split at h
    · cases h
    · rename_i o c1 hr
      cases h; exact .inr ⟨hg, o, c1, hr, rfl⟩
  · rename_i hg
    cases h; exact .inl ⟨by simpa using hg, rfl⟩

/-- All that a channel's part of a frame can be: skipped, or rendered within the precondition of R148. -/
theorem State.renderOrSkip_ok {s : State} {c c1 : Channel} {o : Frame} (h : s.renderOrSkip c = .ok (o, c1)) :
    (c.silent = true ∧ o = s.out ∧ c1 = c) ∨
      (c.silent = false ∧ ∃ k ma, c.stage = some k ∧ c.stageEmpty k = false ∧ s.instrValid c.instr = true ∧
        s.modamp c.instr = some ma ∧ o = c.mixInto s.params s.out ∧ c1 = c.rendered s.params ma k) := by
  unfold State.renderOrSkip at h
  split at h
  · rename_i hs
    cases h; exact .inl ⟨hs, rfl, rfl⟩
  · rename_i hs
    refine .inr ⟨by simpa using hs, ?_⟩
    unfold State.wavegenFrame at h
    split at h
    · cases h
    · rename_i k hk
      split at h
      · cases h
      · rename_i he
        split at h
        · rename_i hv
          split at h
          · rename_i ma hm
            cases h
            exact ⟨k, ma, hk, by simpa using he, hv, hm, rfl, rfl⟩
          · cases h
        · cases h

/-- All that one command of `Execute` can do (R168): run the decoded command, or take the fetch's fault. -/
theorem State.executeOne_next {s t : State} (h : s.executeOne = .next t) :
    ∃ c, s.chan = some c ∧
      ((∃ i, s.fetch c.pc = .command i ∧ exec i s = .next t) ∨
        ∃ cause, s.fetch c.pc = .raises cause ∧ t = s.raise cause c.pc) := by
  obtain ⟨c, hc, h⟩ := State.onChan_next h
  refine ⟨c, hc, ?_⟩
  split at h
  · exact .inl ⟨_, ‹_›, h⟩
  · rename_i cause hf
    cases h; exact .inr ⟨cause, hf, rfl⟩
  · cases h

/-- A fetched command lies inside the store (R160). -/
theorem State.fetch_command_lt {s : State} {pc : Word} {i : Instr} (h : s.fetch pc = .command i) :
    pc.toNat < s.codeLen s.cur := by
  unfold State.fetch at h
  split at h
  · cases h
  · omega

/-- All that a step can do. -/
theorem step_next {s t : State} (h : step s = .next t) :
    (s.resetLine = true ∧ t = s.answerResetLine) ∨
    (s.resetLine = false ∧ s.statusLine = true ∧ t = s.answerStatusLine) ∨
    (s.LinesClear ∧ s.busy = false ∧ t = s.hostTurn) ∨
    (s.LinesClear ∧ s.busy = true ∧ s.phase = .head ∧ s.channelHead = .next t) ∨
    (s.LinesClear ∧ s.busy = true ∧ (∃ e, s.phase = .execute e) ∧ s.executeOne = .next t) ∨
    (s.LinesClear ∧ s.busy = true ∧ s.phase = .chanDone ∧ t = s.nextChannel) := by
  unfold step at h
  split at h
  · rename_i hr
    cases h; exact .inl ⟨hr, rfl⟩
  · rename_i hr
    have hr : s.resetLine = false := by simpa using hr
    split at h
    · rename_i hs
      cases h; exact .inr (.inl ⟨hr, hs, rfl⟩)
    · rename_i hs
      have hl : s.LinesClear := ⟨hr, by simpa using hs⟩
      split at h
      · rename_i hb
        split at h
        · rename_i hp
          exact absurd hp ((State.busy_iff s).1 hb).2
        · exact .inr (.inr (.inr (.inl ⟨hl, hb, ‹_›, h⟩)))
        · exact .inr (.inr (.inr (.inr (.inl ⟨hl, hb, ⟨_, ‹_›⟩, h⟩))))
        · cases h; exact .inr (.inr (.inr (.inr (.inr ⟨hl, hb, ‹_›, rfl⟩))))
      · rename_i hb
        cases h; exact .inr (.inr (.inl ⟨hl, by simpa using hb, rfl⟩))

/-- The step where neither line asks for anything. -/
theorem step_of_clear {s : State} (h : s.LinesClear) :
    step s = if s.busy then
      (match s.phase with
        | .idle => .next s.hostTurn
        | .head => s.channelHead
        | .execute _ => s.executeOne
        | .chanDone => .next s.nextChannel)
      else .next s.hostTurn := by
  unfold step
  rw [h.reset, h.status]
  rfl

/-- The STATUS line is answered at once, whatever the engine is doing (R186). -/
theorem step_of_statusLine {s : State} (hr : s.resetLine = false) (hs : s.statusLine = true) :
    step s = .next s.answerStatusLine := by
  unfold step
  rw [hr, hs]
  rfl

/-- Where a step can stop: in the head of `ChannelFrame` or in a command. -/
theorem step_fault {s : State} {f : Fault} (h : step s = .fault f) :
    s.busy = true ∧ ((s.phase = .head ∧ s.channelHead = .fault f) ∨
      ((∃ e, s.phase = .execute e) ∧ s.executeOne = .fault f)) := by
  unfold step at h
  split at h
  · cases h
  · split at h
    · cases h
    · split at h
      · rename_i hb
        refine ⟨hb, ?_⟩
        split at h
        · cases h
        · exact .inl ⟨‹_›, h⟩
        · exact .inr ⟨⟨_, ‹_›⟩, h⟩
        · cases h
      · cases h

end Sys2Proof.Machine
end

