-- ==== Sys2Proof/Machine/Assembler.lean ====
section
/-! DEFINITION. The assembler text of 30_encoding.md R86 to R88: one command a line, the mnemonic in capitals, one
decimal operand, labels with a colon, comments after a semicolon, and the pseudo-instructions. A tool's notation: no
step of the machine reads it. Assumption 27. -/

namespace Sys2Proof.Machine

/-- Text as characters. -/
abbrev Chars := List Char

/-- The list cut at every character that satisfies `p`; empty pieces stay. -/
def splitAtChar (p : Char → Bool) : Chars → List Chars
  | [] => [[]]
  | x :: xs =>
    match splitAtChar p xs with
    | [] => [[x]]
    | y :: ys => if p x then [] :: y :: ys else (x :: y) :: ys

/-- The lines of a text. -/
def linesOf (t : Chars) : List Chars := splitAtChar (· == '\n') t

/-- A line without its comment, which runs from ';' to the end of the line. -/
def dropComment : Chars → Chars
  | [] => []
  | x :: xs => if x = ';' then [] else x :: dropComment xs

/-- The words of a line, between blanks. -/
def wordsOf (line : Chars) : List Chars :=
  (splitAtChar (fun x => x == ' ' || x == '\t' || x == '\r') line).filter fun w => !w.isEmpty

/-- The value of a decimal digit. -/
def digitOf (x : Char) : Option Nat :=
  if 48 ≤ x.toNat ∧ x.toNat ≤ 57 then some (x.toNat - 48) else none

/-- The number whose digits these are, after those already read. -/
def digitsFrom : Nat → Chars → Option Nat
  | n, [] => some n
  | n, x :: xs =>
    match digitOf x with
    | some d => digitsFrom (10 * n + d) xs
    | none => none

/-- A decimal number without a sign. -/
def naturalOf : Chars → Option Nat
  | [] => none
  | x :: xs => digitsFrom 0 (x :: xs)

/-- A decimal number, with a minus sign where it is negative. -/
def integerOf : Chars → Option Int
  | '-' :: xs => (naturalOf xs).map fun n => -(n : Int)
  | xs => (naturalOf xs).map fun n => (n : Int)

/-- The note name at the head of a word, and what follows it (R87). -/
def noteNameOf : Chars → Option (NoteName × Chars)
  | 'C' :: '#' :: r => some (.cSharp, r)
  | 'D' :: '#' :: r => some (.dSharp, r)
  | 'F' :: '#' :: r => some (.fSharp, r)
  | 'G' :: '#' :: r => some (.gSharp, r)
  | 'A' :: '#' :: r => some (.aSharp, r)
  | 'C' :: r => some (.c, r)
  | 'D' :: r => some (.d, r)
  | 'E' :: r => some (.e, r)
  | 'F' :: r => some (.f, r)
  | 'G' :: r => some (.g, r)
  | 'A' :: r => some (.a, r)
  | 'B' :: r => some (.b, r)
  | _ => none

/-- The pitch of a note written `<name><octave>`, the octave a digit 0 to 8 (R87). -/
def namedPitch (w : Chars) : Option (BitVec 8) :=
  match noteNameOf w with
  | some (n, [x]) =>
    match digitOf x with
    | some d => if h : d < 9 then some (n.pitch ⟨d, h⟩) else none
    | none => none
  | _ => none

/-- An unsigned operand of `bits` bits. -/
def unsignedOperand (bits : Nat) (w : Chars) : Option (BitVec bits) :=
  match naturalOf w with
  | some n => if n < 2 ^ bits then some (BitVec.ofNat bits n) else none
  | none => none

/-- A signed byte operand. -/
def signedOperand (w : Chars) : Option (BitVec 8) :=
  match integerOf w with
  | some v => if -128 ≤ v ∧ v ≤ 127 then some (BitVec.ofInt 8 v) else none
  | none => none

/-- The index a label stands for. DESIGN CHOICE (assumption 27): R86 does not say what a label defined twice means; the
first definition counts. -/
def labelIndex : List (Chars × Nat) → Chars → Option Nat
  | [], _ => none
  | (l, k) :: rest, w => if l = w then some k else labelIndex rest w

/-- The target of a `JUMP`: a decimal index or a label (R86). DESIGN CHOICE (assumption 27): R86 does not say what a label
that is itself a decimal numeral means; the label wins over the index. -/
def targetOperand (labels : List (Chars × Nat)) (w : Chars) : Option (BitVec 12) :=
  match labelIndex labels w with
  | some k => if k < 4096 then some (BitVec.ofNat 12 k) else none
  | none => unsignedOperand 12 w

/-- The command of a line's words, the labels known (R86, R87). -/
def commandOf (labels : List (Chars × Nat)) : List Chars → Option Instr
  | [['P', 'A', 'U', 'S', 'E']] => some Instr.pause
  | [['C', 'E', 'N', 'T', 'E', 'R']] => some Instr.center
  | [['N', 'O', 'T', 'E'], w] =>
    match namedPitch w with
    | some p => some (.note p)
    | none => (unsignedOperand 8 w).map .note
  | [['S', 'E', 'T', 'I'], w] => (unsignedOperand 12 w).map .seti
  | [['B', 'E', 'A', 'T'], w] => (unsignedOperand 12 w).map .beat
  | [['J', 'U', 'M', 'P'], w] => (targetOperand labels w).map .jump
  | [['R', 'E', 'P', 'T'], w] => (unsignedOperand 12 w).map .rept
  | [['P', 'A', 'N'], w] => (signedOperand w).map .pan
  | _ => none

/-- A word that is a label, without its colon. DESIGN CHOICE (assumption 27): R86 does not say where blanks may or must stand
around a label's colon; the colon ends the label's word, so a blank before it, or a command after it with no blank
between, makes no label and the line is refused. -/
def labelOf (w : Chars) : Option Chars :=
  match w.reverse with
  | ':' :: x :: xs => some (x :: xs).reverse
  | _ => none

/-- The labels at the head of a line, and the words of its command. -/
def splitLabels : List Chars → List Chars × List Chars
  | [] => ([], [])
  | w :: ws =>
    match labelOf w with
    | some l => let r := splitLabels ws
                (l :: r.1, r.2)
    | none => ([], w :: ws)

/-- The labels of the lines, each with the index of the next command (R86). -/
def collectLabels : Nat → List (List Chars × List Chars) → List (Chars × Nat)
  | _, [] => []
  | k, (ls, ws) :: rest =>
    (ls.map fun l => (l, k)) ++ collectLabels (if ws.isEmpty then k else k + 1) rest

/-- The commands of the lines, or none where a line is no command. -/
def collectCommands (labels : List (Chars × Nat)) : List (List Chars × List Chars) → Option (List Instr)
  | [] => some []
  | (_, []) :: rest => collectCommands labels rest
  | (_, w :: ws) :: rest =>
    match commandOf labels (w :: ws), collectCommands labels rest with
    | some i, some is => some (i :: is)
    | _, _ => none

/-- The program of one channel from its text, index 0 first (R86). -/
def assemble (text : Chars) : Option (List Instr) :=
  let ls := (linesOf text).map fun l => splitLabels (wordsOf (dropComment l))
  collectCommands (collectLabels 0 ls) ls

/-- The command store of a program. -/
def storeOf (p : List Instr) : List Word := p.map encode

/-- The operand of a command as R86 writes it: one decimal number. -/
def operandText : Instr → String
  | .note p => toString p.toNat
  | .seti i => toString i.toNat
  | .beat n => toString n.toNat
  | .jump t => toString t.toNat
  | .rept n => toString n.toNat
  | .pan o => toString o.toInt

/-- A command as R86 writes it. -/
def instrText (i : Instr) : String := i.mnemonic ++ " " ++ operandText i

end Sys2Proof.Machine
end

