-- ==== Sys2Proof/Tests/Slice0.lean ====
section
/-! SUPPORT. Tests on fixed values, taken from 95_test_vectors.md and the worked examples of the rules, and for every
statement with hypotheses a state and operands that meet them. No test runs more than a few steps. -/

namespace Sys2Proof.Tests

open Sys2Proof Sys2Proof.Machine

-- One theorem at a time: many evaluations side by side take a thread and its stack each.
set_option Elab.async false

/-! ### Helpers -/

/-- The next state, where there is one. -/
def nextOf : Out → Option State
  | .next t => some t
  | _ => none

/-- Something of the next state. -/
def after {α : Type} (o : Out) (f : State → α) : Option α := (nextOf o).map f

/-- The stop, where there is one. -/
def stopOf : Out → Option Fault
  | .fault f => some f
  | _ => none

/-- A next state that is there. -/
theorem next_of_isSome {o : Out} (h : (nextOf o).isSome = true) : ∃ t, o = .next t := by
  cases o with
  | next t => exact ⟨t, rfl⟩
  | fault r => cases h
  | refused r => cases h

/-- The instrument `Ins()` of 95_test_vectors.md. -/
def ins : Instrument where
  carwave := 0#3
  peak := 65535#16
  att := 0#16
  dec := 0#16
  sus := 65535#16
  rel := 0#16
  modwave := 0#3
  modamp := 0#16
  num := 1#8
  den := 1#8
  modph0 := 0#16

/-- The first instrument of 95_test_vectors.md 2.3, with `MODPH0 = 16384`. -/
def shaped : Instrument :=
  { ins with att := 2048#16, dec := 1024#16, sus := 32768#16, rel := 4096#16, modph0 := 16384#16 }

/-- The tone of program P1 (95_test_vectors.md section 3). -/
def p1 : Tune := ⟨8000#32, 8000#32, [ins], [[0x1000#16, 0x0030#16, 0x2001#16, 0x3000#16]]⟩

/-- Program P2: one FM note with a full envelope. -/
def p2 : Tune where
  sampleRate := 8000#32
  beatLen := 16#32
  instruments :=
    [{ ins with
        carwave := 3#3, att := 3#16, dec := 2#16, sus := 32768#16, rel := 2#16, modamp := 32768#16,
        num := 2#8, modph0 := 16384#16 }]
  code := [[0x1000#16, 0x5020#16, 0x0045#16, 0x2001#16, 0x00FF#16, 0x2001#16, 0x3004#16]]

/-- Program P3: two channels. -/
def p3 : Tune where
  sampleRate := 8000#32
  beatLen := 4#32
  instruments :=
    [{ ins with carwave := 1#3 },
     { ins with carwave := 2#3, peak := 40000#16, sus := 40000#16, modwave := 1#3, num := 1#8, den := 2#8 }]
  code :=
    [[0x1000#16, 0x5080#16, 0x0051#16, 0x2001#16, 0x4002#16, 0x3003#16, 0x00FF#16, 0x2002#16, 0x3002#16],
     [0x1001#16, 0x507F#16, 0x0045#16, 0x2005#16, 0x3002#16]]

/-- A tune with the given instruments and one command store, 8000 Hz, 8000 frames a beat. -/
def tuneOf (instruments : List Instrument) (code : List Word) : Tune := ⟨8000#32, 8000#32, instruments, [code]⟩

/-- The block with a tune loaded. -/
def loaded (t : Tune) : State := State.reset.load (.image (tuneImage t))

/-- The block in an execute phase of its only channel, whose registers are `c`. -/
def executing (t : Tune) (c : Channel) : State :=
  { loaded t with
    run := .running, phase := .execute false, cur := 0, resetLine := false, statusLine := false, ch := [c] }

/-- `executing`, as the statements say it. -/
theorem executing_ok (t : Tune) (c : Channel) : (executing t c).Executing c :=
  ⟨⟨rfl, rfl⟩, rfl, ⟨false, rfl⟩, rfl⟩

/-- A reset channel with its cursor at `pc`. -/
def channelAt (pc : Word) : Channel := { Channel.reset with pc := pc }

/-- The channel of the worked example of R148. -/
def toneChannel : Channel :=
  { Channel.reset with
    pc := 3#16, nfl := 5#32, cph := 16384#16, cstep := 1000#16, mph := 16384#16, mstep := 3000#16,
    ampL := 16776960#32, ampR := 8388480#32, efr := #v[0#32, 0#32, 5#32, 0#32], ecur := 2 }

/-- The tune of the worked example of R148: `MODAMP = 65535`. -/
def toneTune : Tune := tuneOf [{ ins with modamp := 65535#16 }] [0x1000#16, 0x0030#16, 0x2001#16, 0x3000#16]

/-- The engine at the head of its only channel, whose registers are `c`. -/
def rendering (t : Tune) (c : Channel) : State :=
  { loaded t with
    run := .running, phase := .head, cur := 0, resetLine := false, statusLine := false, ch := [c] }

/-- `rendering`, as the statements say it. -/
theorem rendering_ok (t : Tune) (c : Channel) : (rendering t c).AtHead c := ⟨⟨rfl, rfl⟩, rfl, rfl, rfl⟩

/-! ### Decoding: words written out from R80 to R82 -/

/-- `NOTE 48`: op 0000, arg[11:8] 0000, pitch 00110000. -/
theorem test_decode_note : decodeWord 0b0000000000110000#16 = some (.note 48#8) := by decide

/-- `NOTE 107` and `NOTE 108` (95_test_vectors.md 2.6). -/
theorem test_decode_note_bounds :
    decodeWord 0x006B#16 = some (.note 107#8) ∧ decodeWord 0x006C#16 = some (.note 108#8) := by decide

/-- `SETI 5`: op 0001, index 000000000101; and the largest index. -/
theorem test_decode_seti : decodeWord 0b0001000000000101#16 = some (.seti 5#12) ∧
    decodeWord 0x1FFF#16 = some (.seti 4095#12) := by decide

/-- `BEAT 2741`: op 0010, count 101010110101; and `BEAT 0`. -/
theorem test_decode_beat : decodeWord 0b0010101010110101#16 = some (.beat 2741#12) ∧
    decodeWord 0x2000#16 = some (.beat 0#12) := by decide

/-- `JUMP 17`: op 0011, target 000000010001; and the largest target. -/
theorem test_decode_jump : decodeWord 0b0011000000010001#16 = some (.jump 17#12) ∧
    decodeWord 0x3FFF#16 = some (.jump 4095#12) := by decide

/-- `REPT 3`: op 0100, count 000000000011; and `REPT 0`. -/
theorem test_decode_rept : decodeWord 0b0100000000000011#16 = some (.rept 3#12) ∧
    decodeWord 0x4000#16 = some (.rept 0#12) := by decide

/-- `PAN -64`: op 0101, arg[11:8] 0000, offset 11000000 (95_test_vectors.md 2.5). -/
theorem test_decode_pan : decodeWord 0b0101000011000000#16 = some (.pan (BitVec.ofInt 8 (-64))) := by decide

/-- The illegal words of 95_test_vectors.md 2.6. -/
theorem test_decode_illegal :
    ([0x0100#16, 0x0130#16, 0x5100#16, 0x5F7F#16, 0x6000#16, 0x7ABC#16, 0x8000#16, 0xFFFF#16, 0xF000#16].all
      fun w => decodeWord w == none) = true := by decide

/-- The low byte comes first (R65). -/
theorem test_decode_bytes :
    decode [0x30#8, 0x00#8, 0x01#8] = .ok (.note 48#8, [0x01#8]) ∧
    decode [0x00#8, 0x60#8] = .error (.illegalCommand 0x6000#16) ∧ decode [0x00#8] = .error .truncated := by
  decide

/-- Encoding gives the words of R89. -/
theorem test_encode :
    encode (.note 255#8) = 0x00FF#16 ∧ encode (.seti 5#12) = 0x1005#16 ∧ encode (.beat 4095#12) = 0x2FFF#16 ∧
    encode (.jump 17#12) = 0x3011#16 ∧ encode (.rept 3#12) = 0x4003#16 ∧
    encode (.pan (BitVec.ofInt 8 (-128))) = 0x5080#16 := by decide

/-- The numbering of spec/opcode_table.json: bit 0 is the least significant bit of the word. -/
theorem test_table_word : decodeTableWord 16 0x50FF = some (.pan (BitVec.ofInt 8 (-1))) ∧
    decodeTableWord 16 0x6000 = none := by decide

/-- The text of R86 and R87: labels, comments, pseudo-instructions. -/
theorem test_assemble :
    assemble "start: SETI 0 ; tone\n NOTE C4\n CENTER\nBEAT 1\nPAUSE\nJUMP start".toList
      = some [.seti 0#12, .note 48#8, .pan 0#8, .beat 1#12, .note 255#8, .jump 0#12] := by decide

/-- `NOTE B8` is `NOTE 107`, `PAN -128` is the most negative offset; pitch 256 is no operand. -/
theorem test_assemble_operands :
    assemble "NOTE B8\nPAN -128\nREPT 3".toList = some [.note 107#8, .pan 128#8, .rept 3#12] ∧
    assemble "NOTE 256".toList = none := by decide

/-! ### Oscillators (95_test_vectors.md 2.1) -/

/-- The reference sine. -/
theorem test_sine :
    ([0, 1, 8192, 16385, 24576, 32767, 32768, 40960, 49151, 57344, 65534, 65535].map fun n =>
      (oscSineReference (BitVec.ofNat 16 n)).toInt)
      = [0, 3, 23139, 32767, 23139, 3, -4, -23143, -32768, -23138, -4, -1] := by decide

/-- The triangle. -/
theorem test_triangle :
    ([0, 1, 8192, 16384, 32767, 32768, 40960, 49151, 65535].map fun n => (oscTriangle (BitVec.ofNat 16 n)).toInt)
      = [-32768, -32766, -16384, 0, 32766, 32766, 16382, 0, -32768] := by decide

/-- The reference noise. -/
theorem test_noise :
    ([0, 1, 8192, 16383, 16384, 32767, 32768, 49152, 65534, 65535].map fun n =>
      (oscNoiseReference (BitVec.ofNat 16 n)).toInt)
      = [-8947, 9573, 32013, 5301, 7437, -27467, 23821, -25331, -9301, -27467] := by decide

/-! ### PitchToSteps and BuildEnvelope (95_test_vectors.md 2.2, 2.3) -/

/-- Steps: the truncated base, the ratio, the alias, the corner of U4, silence and the two zero divisors. -/
theorem test_steps :
    pitchToSteps Config.defaultFreqTable 8000 1 2 48 = some (2143#16, 1072#16) ∧
    pitchToSteps Config.defaultFreqTable 44100 0 1 57 = some (654#16, 1#16) ∧
    pitchToSteps Config.defaultFreqTable 48000 1 8 0 = some (22#16, 3#16) ∧
    pitchToSteps Config.defaultFreqTable 44100 255 1 107 = some (11743#16, 45391#16) ∧
    pitchToSteps Config.defaultFreqTable 8000 1 0 255 = some (0#16, 0#16) ∧
    pitchToSteps Config.defaultFreqTable 8000 1 0 48 = none ∧
    pitchToSteps Config.defaultFreqTable 0 1 1 48 = none := by decide

/-- The rounding division. -/
theorem test_roundDiv :
    ([(10, 4), (9, 4), (13, 5), (3999, 8000), (4000, 8000), (12000, 8000), (0, 8000)].map
      fun x : Int × Int => roundDiv x.1 x.2) = [3, 2, 3, 1, 1, 2, 1] := by decide

/-- The stage counts of the first instrument of 2.3 at the lengths 8000, 5000, 3000 and 0. -/
theorem test_counts :
    ([8000, 5000, 3000, 0].map fun l => countList (stageCounts 8000 2048#16 1024#16 4096#16 l))
      = [[4000, 2000, 0, 2000], [4000, 1000, 0, 0], [3000, 0, 0, 0], [0, 0, 0, 0]] := by decide

/-- The deltas of row 2 of 2.3, both lanes. -/
theorem test_deltas :
    (laneDeltas ⟨4000, 1000, 0, 0⟩ 65535#16 32768#16 256#9).toList.map BitVec.toInt
      = [4194, -8388, 0, -8388608] ∧
    (laneDeltas ⟨4000, 1000, 0, 0⟩ 65535#16 32768#16 128#9).toList.map BitVec.toInt
      = [2097, -4194, 0, -4194304] := by decide

/-! ### The datapath (95_test_vectors.md 2.4) -/

/-- The hand-made envelope of 2.4. -/
def handMade : Channel :=
  { Channel.reset with
    efr := #v[2#32, 0#32, 3#32, 0#32]
    edl := #v[100#32, BitVec.ofInt 32 (-60), 0#32, BitVec.ofInt 32 (-140)]
    edr := #v[50#32, BitVec.ofInt 32 (-30), 0#32, BitVec.ofInt 32 (-70)]
    ecur := 0 }

/-- What the table of 2.4 shows of a channel: `AMPL`, `AMPR`, `ECUR`, the four `EFR`. -/
def envelopeView (c : Channel) : List Int :=
  [c.ampL.toInt, c.ampR.toInt, c.ecur.val] ++ c.efr.toList.map BitVec.toInt

/-- What the tables of section 3 show of a channel: `CPH`, `MPH`, `NFL`, `PC`, then the envelope. -/
def noteView (c : Channel) : List Int :=
  [(c.cph.toNat : Int), (c.mph.toNat : Int), c.nfl.toInt, (c.pc.toNat : Int)] ++ envelopeView c

/-- The output frame and the channels' tables. -/
def frameView (t : State) : List (List Int) := [t.out.l.toInt, t.out.r.toInt] :: t.ch.map noteView

/-- A tick of the stage at the cursor. -/
def tick (c : Channel) : Channel :=
  match c.stage with
  | some k => c.envelopeTick k
  | none => c

/-- The five ticks of 2.4. -/
theorem test_ticks :
    ([1, 2, 3, 4, 5].map fun n => envelopeView (tick^[n] handMade.skipZeroStages))
      = [[100, 50, 0, 1, 0, 3, 0], [140, 70, 2, 0, 0, 3, 0], [140, 70, 2, 0, 0, 2, 0], [140, 70, 2, 0, 0, 1, 0],
         [0, 0, 4, 0, 0, 0, 0]] := by decide

/-- Modulator values and increments. -/
theorem test_modulator :
    ([(32767, 65535), (-32768, 65535), (-1, 1), (23139, 32768)].map
      fun x : Int × Nat => modValue x.1 (BitVec.ofNat 16 x.2)) = [2047, -2048, -1, 723] ∧
    ([(1000, 2047), (1000, -2048), (1000, -1), (7209, 1023), (65535, 2047)].map
      fun x : Nat × Int => modulatedInc (BitVec.ofNat 16 x.1) x.2) = [1999, 0, 999, 10809, 131038] := by decide

/-- Contributions and the wrapping sum. -/
theorem test_contribution :
    ([(32767, 16776960), (-32768, 16776960), (-23139, 8388480), (-1, 16776960), (100, 511), (32767, -1),
        (-32768, -1)].map fun x : Int × Int => contribution x.1 (BitVec.ofInt 32 x.2))
      = [127, -128, -46, -1, 0, -1, 0] ∧
    (outAdd 127#8 127).toInt = -2 ∧ (outAdd (BitVec.ofInt 8 (-128)) (-128)).toInt = 0 := by decide

/-- The worked frame of R148. -/
theorem test_wavegen_frame :
    after (step (rendering toneTune toneChannel)) frameView
      = some [[127, 63], [18383, 19384, 4, 3, 16776960, 8388480, 2, 0, 0, 4, 0]] := by decide +kernel

/-- Frame 1 of program P2: `MODAMP` 32768, saw carrier. -/
theorem test_wavegen_p2 :
    after (step (rendering p2 { Channel.reset with
        wselc := .saw, nfl := 15#32, cph := 10809#16, mph := 30802#16, cstep := 7209#16, mstep := 14418#16,
        ampL := 2490330#32, ampR := 3355392#32, efr := #v[4#32, 3#32, 5#32, 3#32],
        edl := #v[2490330#32, 0#32, 0#32, 0#32], edr := #v[3355392#32, 0#32, 0#32, 0#32], ecur := 0 }))
      frameView
      = some [[6, 8], [18683, 45220, 14, 0, 4980660, 6710784, 0, 3, 3, 5, 3]] := by decide +kernel

/-! ### The commands (95_test_vectors.md 2.5, 2.8) -/

/-- `NOTE 48` at 8000 Hz (R162). -/
theorem test_note : after (exec (.note 48#8) (executing p1 (channelAt 1#16)))
    (fun t => t.ch.map fun c => (c.cstep.toNat, c.mstep.toNat, c.pc.toNat)) = some [(2143, 2143, 2)] := by
  decide +kernel

/-- `NOTE` with `DEN = 0`: `DivideByZero` at the command, no step written (R203). -/
theorem test_note_fault :
    after (exec (.note 48#8) (executing (tuneOf [{ ins with den := 0#8 }] [0x0030#16]) (channelAt 0#16)))
      (fun t => (t.run, t.fcause.code, t.fchan, t.fpc, t.ch)) = some (.faulted, 5#3, 0, 0#16, [channelAt 0#16]) := by
  decide +kernel

/-- `SETI 2` of a saw instrument (R163). -/
theorem test_seti :
    after (exec (.seti 2#12) (executing (tuneOf [ins, ins, { ins with carwave := 3#3 }] []) (channelAt 7#16)))
      (fun t => t.ch.map fun c => (c.instr, c.wselc, c.wselm, c.pc)) = some [(2#12, .saw, .sine, 8#16)] := by
  decide +kernel

/-- `SETI` of a reserved waveform (R207). -/
theorem test_seti_reserved :
    after (exec (.seti 1#12) (executing (tuneOf [ins, { ins with carwave := 5#3 }] []) (channelAt 3#16)))
      (fun t => (t.fcause.code, t.fpc, t.ch)) = some (4#3, 3#16, [channelAt 3#16]) := by decide +kernel

/-- `BEAT 1` with an instantaneous attack: the phases run on (R164). -/
theorem test_beat :
    after (exec (.beat 1#12) (executing p1 { channelAt 2#16 with cph := 39104#16, mph := 39104#16 }))
      (fun t => (t.phase, t.ch.map noteView))
      = some (.head, [[39104, 39104, 8000, 3, 16776960, 16776960, 2, 0, 0, 8000, 0]]) := by decide +kernel

/-- `BEAT 1` with a real attack: the phases restart (2.5). -/
theorem test_beat_attack :
    after (exec (.beat 1#12) (executing (tuneOf [shaped] []) { channelAt 2#16 with cph := 39104#16, mph := 39104#16 }))
      (fun t => t.ch.map noteView)
      = some [[0, 16384, 8000, 3, 0, 0, 0, 4000, 2000, 0, 2000]] := by decide +kernel

/-- `JUMP 17` (R165). -/
theorem test_jump : after (exec (.jump 17#12) (executing p1 (channelAt 3#16)))
    (fun t => decide (t = executing p1 (channelAt 17#16))) = some true := by decide +kernel

/-- `REPT 3` at index 5 with `LOOP` 0, 2 and 1 (2.5). -/
theorem test_rept :
    ([0#12, 2#12, 1#12].map fun l =>
      let c := Channel.repeatStep { channelAt 5#16 with loop := l } 3#12
      (c.loop.toNat, c.pc.toNat)) = [(3, 6), (1, 6), (0, 7)] := by decide

/-- `REPT 0` with `LOOP = 0` falls through and leaves it 0 (R240). -/
theorem test_rept_zero : after (exec (.rept 0#12) (executing p1 (channelAt 5#16)))
    (fun t => t.ch.map fun c => (c.loop, c.pc)) = some [(0#12, 6#16)] := by decide +kernel

/-- The pan table of 2.5. -/
theorem test_pan :
    ([0, -1, 1, -64, 64, 32, -127, -128, 126, 127].map fun o =>
        (nextOf (exec (.pan (BitVec.ofInt 8 o)) (State.powerOn Params.initial 1))).map fun t =>
          t.ch.map fun c => (c.panL.toNat, c.panR.toNat))
      = [(256, 256), (256, 254), (252, 256), (256, 128), (126, 256), (190, 256), (256, 2), (256, 0), (2, 256),
         (0, 256)].map fun x => some [x] := by decide +kernel

/-- The first step from reset with a word placed: `JUMP 0` runs. -/
theorem test_placed_word : after (step (State.reset.withFetchWord 16 0x3005))
    (fun t => t.ch.map fun c => c.pc) = some [5#16] := by decide +kernel

/-- STATUS asked for inside a frame, in the execute phase of a `JUMP` to itself, is answered RUNNING (R186, R209). -/
theorem test_status_line :
    after (core.run 3 { executing (tuneOf [] [0x3000#16]) (channelAt 0#16) with statusLine := true })
      (fun t => t.sent) = some [.status .running .none 0 0#16] := by decide +kernel

/-- Program P4 (b) (95_test_vectors.md): two channels with a full-scale square. -/
def p4b : Tune where
  sampleRate := 8000#32
  beatLen := 4#32
  instruments := [{ ins with carwave := 1#3 }]
  code := List.replicate 2 [0x1000#16, 0x0030#16, 0x2001#16, 0x3000#16]

/-- Frame 0 of P4 (b), which executes commands first: the exact sums are 254, and -2 is delivered. -/
theorem test_p4b_first_frame :
    ((State.launched Params.initial p4b).frame 20).map (fun e => (e.left, e.right, e.state.sent))
      = some (254, 254, [.frame ⟨BitVec.ofInt 8 (-2), BitVec.ofInt 8 (-2)⟩]) := by decide +kernel

/-- Program P4 (b) in short: two channels in one frame, 127 and 127 wrap to -2. -/
theorem test_two_channels_wrap :
    after (core.run 5 { loaded p3 with
        run := .running, port := [.pull],
        ch := List.replicate 2 { Channel.reset with
          wselc := .square, nfl := 2#32, cstep := 1#16, ampL := 16776960#32, ampR := 16776960#32,
          efr := #v[0#32, 0#32, 2#32, 0#32], ecur := 2 } })
      (fun t => t.sent) = some [.frame ⟨BitVec.ofInt 8 (-2), BitVec.ofInt 8 (-2)⟩] := by decide +kernel

/-! ### Well-formed tunes: what each check refuses (R236) -/

/-- P1 and P3 are well-formed. -/
theorem test_wf_p1 : p1.wf Config.defaultFreqTable = true := by decide +kernel

theorem test_wf_p3 : p3.wf Config.defaultFreqTable = true := by decide +kernel

/-- A tune like P1 with another command store. -/
def p1With (code : List Word) : Tune := { p1 with code := [code] }

/-- W1: `DEN = 0`. -/
theorem test_wf_w1 : tuneW1 (tuneOf [{ ins with den := 0#8 }] []) = false := by decide

/-- W2: `SETI 1` with one instrument. -/
theorem test_wf_w2 : tuneW2 (p1With [0x1001#16, 0x0030#16, 0x2001#16, 0x3000#16]) = false := by decide

/-- W3: `JUMP 9` past the end. -/
theorem test_wf_w3 : tuneW3 (p1With [0x3009#16]) = false := by decide

/-- W4: no jump back; and an empty store. -/
theorem test_wf_w4 : tuneW4 (p1With [0x1000#16, 0x0030#16, 0x2001#16]) = false ∧ tuneW4 (p1With []) = false := by
  decide +kernel

/-- W5: a count of 0; the layout of LFM section 8; nested sections (2.7 (d)). -/
theorem test_wf_w5 :
    tuneW5 (p1With [0x1000#16, 0x0030#16, 0x2001#16, 0x4000#16, 0x3002#16, 0x00FF#16, 0x2001#16, 0x3005#16])
      = false ∧
    tuneW5 (p1With [0x4001#16, 0x0030#16, 0x2001#16, 0x3000#16, 0x00FF#16, 0x2001#16, 0x3004#16]) = false ∧
    tuneW5 (p1With [0x2001#16, 0x4001#16, 0x3000#16, 0x4002#16, 0x3000#16, 0x2001#16, 0x3005#16]) = false := by
  decide +kernel

/-- W5 accepts the supported idiom (2.7 (a)). -/
theorem test_wf_w5_idiom :
    tuneW5 (p1With [0x1000#16, 0x0030#16, 0x2001#16, 0x4002#16, 0x3002#16, 0x00FF#16, 0x2001#16, 0x3005#16])
      = true := by decide +kernel

/-- W6: a jump to itself; a cycle whose only `BEAT` is `BEAT 0`; `BEAT_LEN = 0`. -/
theorem test_wf_w6 : tuneW6 (p1With [0x3000#16]) = false ∧ tuneW6 (p1With [0x2000#16, 0x3000#16]) = false ∧
    tuneW6 { p1 with beatLen := 0#32 } = false := by decide +kernel

/-- W7: the sample rates 0 and 2^20 + 1. -/
theorem test_wf_w7 : tuneW7 { p1 with sampleRate := 0#32 } = false ∧
    tuneW7 { p1 with sampleRate := 1048577#32 } = false ∧
    tuneW7 { p1 with sampleRate := 1048576#32 } = true := by decide

/-- W8: a note of 2^31 frames. -/
theorem test_wf_w8 : tuneW8 { p1 with beatLen := 2147483648#32 } = false := by decide

/-- W9: ratio 255/1 at B8. -/
theorem test_wf_w9 : tuneW9 Config.defaultFreqTable
    { tuneOf [{ ins with num := 255#8 }] [0x1000#16, 0x006B#16, 0x2001#16, 0x3000#16] with
      sampleRate := 44100#32 } = false := by decide +kernel

/-- W10: `NUM = 0`. -/
theorem test_wf_w10 : tuneW10 Config.defaultFreqTable
    (tuneOf [{ ins with num := 0#8 }] [0x1000#16, 0x0030#16, 0x2001#16, 0x3000#16]) = false := by decide +kernel

/-- W9 and W10 ask for nothing where there is no instrument. -/
theorem test_wf_no_instruments :
    tuneW9 Config.defaultFreqTable (tuneOf [] [0x0030#16, 0x2001#16, 0x3000#16]) = true ∧
    tuneW10 Config.defaultFreqTable (tuneOf [] [0x0030#16, 0x2001#16, 0x3000#16]) = true := by decide +kernel

/-- W11: an attack of 65535 at 2^20 Hz. -/
theorem test_wf_w11 : tuneW11 { tuneOf [{ ins with att := 65535#16 }] [] with sampleRate := 1048576#32 } = false := by
  decide

/-- W12: an illegal word; a reserved waveform. -/
theorem test_wf_w12 : tuneW12 (p1With [0x6000#16]) = false ∧
    tuneW12 (tuneOf [{ ins with modwave := 7#3 }] []) = false := by decide

/-- W13: B8 at 8000 Hz aliases. -/
theorem test_wf_w13 : tuneW13 Config.defaultFreqTable (p1With [0x1000#16, 0x006B#16, 0x2001#16, 0x3000#16])
    = false := by decide +kernel

/-- W14: P4 (b) breaks it in its first frame. -/
theorem test_wf_w14 : ¬ tuneW14 Params.initial p4b := by
  intro h
  have hs : (((State.launched Params.initial p4b).frame 20).map fun e => (e.left, e.state.run))
      = some (254, .running) := by decide +kernel
  cases he : (State.launched Params.initial p4b).frame 20 with
  | none => rw [he] at hs; cases hs
  | some e =>
    rw [he] at hs
    simp only [Option.map_some, Option.some.injEq, Prod.mk.injEq] at hs
    have := (h _ 20 e .start he hs.2).2.1
    omega

/-- The sizes of R4. -/
theorem test_wf_sizes : tuneSizes (p1With (List.replicate 4097 0x2001#16)) = false := by decide +kernel

/-! ### Witnesses: for every statement with hypotheses, data that meet them together -/

/-- OperandAssembly: the largest and smallest operand of each command. -/
theorem witness_operandAssembly :
    decodeWord 0x0000#16 = some (.note 0#8) ∧ decodeWord 0x1000#16 = some (.seti 0#12) ∧
    decodeWord 0x2FFF#16 = some (.beat 4095#12) ∧ decodeWord 0x3FFF#16 = some (.jump 4095#12) ∧
    decodeWord 0x4FFF#16 = some (.rept 4095#12) ∧ decodeWord 0x507F#16 = some (.pan 127#8) ∧
    decodeWord 0x5080#16 = some (.pan 128#8) := by decide

/-- IllegalWordsFault: an illegal word at the last index of a store. -/
theorem witness_illegalWordsFault :
    (executing (p1With [0x1000#16, 0x0100#16]) (channelAt 1#16)).Executing (channelAt 1#16) ∧
    (channelAt 1#16).pc.toNat < (executing (p1With [0x1000#16, 0x0100#16]) (channelAt 1#16)).codeLen 0 ∧
    (executing (p1With [0x1000#16, 0x0100#16]) (channelAt 1#16)).codeWord 0 1#16 = some 0x0100#16 ∧
    decodeWord 0x0100#16 = none :=
  ⟨executing_ok _ _, by decide +kernel, by decide +kernel, by decide⟩

/-- StepRunsDecodedInstruction: `JUMP 0` at the last index of P1. -/
theorem witness_stepRuns :
    (executing p1 (channelAt 3#16)).Executing (channelAt 3#16) ∧
    (channelAt 3#16).pc.toNat < (executing p1 (channelAt 3#16)).codeLen 0 ∧
    (executing p1 (channelAt 3#16)).mem.read (codeAddr 0 3) = some 0x00#8 ∧
    (executing p1 (channelAt 3#16)).mem.read (codeAddr 0 3 + 1) = some 0x30#8 ∧
    decodeWord (0x30#8 ++ 0x00#8) = some (.jump 0#12) :=
  ⟨executing_ok _ _, by decide +kernel, by decide +kernel, by decide +kernel, by decide⟩

/-- FetchPastEndFaults: the first index past the end of P1, and an empty store. -/
theorem witness_fetchPastEnd :
    (executing p1 (channelAt 4#16)).Executing (channelAt 4#16) ∧ (executing p1 (channelAt 4#16)).codeLen 0 ≤ (channelAt 4#16).pc.toNat ∧
    (executing (p1With []) (channelAt 0#16)).Executing (channelAt 0#16) ∧
    (executing (p1With []) (channelAt 0#16)).codeLen 0 ≤ (channelAt 0#16).pc.toNat :=
  ⟨executing_ok _ _, by decide +kernel, executing_ok _ _, by decide +kernel⟩

/-- PowerOnValues: the block at power-on with one instrument in its table, and every command that reads. -/
theorem witness_powerOnReads :
    (∀ a, (State.powerOn { Params.initial with ninstr := 1 } 1).mem.read a = none) ∧
    (State.powerOn { Params.initial with ninstr := 1 } 1).ch[0]? = some Channel.reset ∧
    (107#8).toNat ≤ 107 ∧ Channel.reset.instr.toNat < 1 ∧ (0#12).toNat < 1 :=
  ⟨fun _ => rfl, by decide, by decide, by decide, by decide⟩

/-- ResetKeepsTuneStore: the line while a frame is in progress; the host's move between frames. -/
theorem witness_reset :
    ({ rendering p1 toneChannel with resetLine := true } : State).resetLine = true ∧
    ({ loaded p1 with port := [.reset] } : State).LinesClear ∧
    ({ loaded p1 with port := [.reset] } : State).busy = false := ⟨rfl, ⟨rfl, rfl⟩, by decide +kernel⟩

/-- NoteEffect: pitch 108; pitch 107 without instruments; a zero divisor of each kind; a note that gets its steps. -/
theorem witness_note :
    (executing p1 (channelAt 1#16)).ch[(executing p1 (channelAt 1#16)).cur]? = some (channelAt 1#16) ∧ 107 < (108#8).toNat ∧
    (107#8).toNat ≤ 107 ∧
    (executing (tuneOf [] []) (channelAt 1#16)).params.ninstr ≤ (channelAt 1#16).instr.toNat ∧
    (executing (tuneOf [] []) (channelAt 1#16)).run = .running ∧
    (channelAt 1#16).instr.toNat < (executing p1 (channelAt 1#16)).params.ninstr ∧
    (executing p1 (channelAt 1#16)).sampleRate = some 8000#32 ∧
    (executing p1 (channelAt 1#16)).instrWord 0#12 7 = some 0x0101#16 ∧ (0x0101#16).toNat % 256 ≠ 0 ∧
    (executing (tuneOf [{ ins with den := 0#8 }] []) (channelAt 1#16)).instrWord 0#12 7 = some 0x0100#16 ∧
    (executing { p1 with sampleRate := 0#32 } (channelAt 1#16)).sampleRate = some 0#32 := by decide +kernel

/-- SetiEffect: the index NINSTR; the reserved code 5 in either field; the last code, 4, in both. -/
theorem witness_seti :
    (executing p1 (channelAt 0#16)).ch[(executing p1 (channelAt 0#16)).cur]? = some (channelAt 0#16) ∧
    (0#12).toNat < (executing p1 (channelAt 0#16)).params.ninstr ∧
    (executing p1 (channelAt 0#16)).params.ninstr ≤ (1#12).toNat ∧ (executing p1 (channelAt 0#16)).run = .running ∧
    (executing (tuneOf [{ ins with carwave := 5#3 }] []) (channelAt 0#16)).instrWord 0#12 0 = some 0x0005#16 ∧
    (executing (tuneOf [{ ins with modwave := 5#3 }] []) (channelAt 0#16)).instrWord 0#12 0 = some 0x0050#16 ∧
    (executing (tuneOf [{ ins with carwave := 4#3, modwave := 4#3 }] []) (channelAt 0#16)).instrWord 0#12 0
      = some 0x0044#16 ∧
    (0x0044#16).toNat % 8 ≤ 4 ∧ (0x0044#16).toNat / 16 % 8 ≤ 4 ∧ 4 < (0x0005#16).toNat % 8 ∧
    4 < (0x0050#16).toNat / 16 % 8 := by decide +kernel

/-- What `BEAT` reads of `shaped`. -/
def shapedOperands : BeatOperands where
  sampleRate := 8000#32
  beatLen := 8000#32
  peak := 65535#16
  att := 2048#16
  dec := 1024#16
  sus := 32768#16
  rel := 4096#16
  modph0 := 16384#16

/-- The words `BEAT` reads, where the model's own read of them finds them. -/
theorem beatReads_of {s : State} {i : BitVec 12} {o : BeatOperands}
    (h : (s.sampleRate, s.beatLen, [1, 2, 3, 4, 5, 8].map (s.instrWord i))
      = (some o.sampleRate, some o.beatLen,
          [some o.peak, some o.att, some o.dec, some o.sus, some o.rel, some o.modph0])) : s.BeatReads i o := by
  simp only [Prod.mk.injEq, List.map_cons, List.map_nil, List.cons.injEq, and_true] at h
  obtain ⟨h1, h2, h3, h4, h5, h6, h7, h8⟩ := h
  exact ⟨h1, h2, h3, h4, h5, h6, h7, h8⟩

/-- BeatEffect: no instruments; the clamped release of 2.3, row 1; the shortest note, no frames. -/
theorem witness_beat :
    (executing (tuneOf [shaped] []) (channelAt 2#16)).ch[0]? = some (channelAt 2#16) ∧
    (executing (tuneOf [] []) (channelAt 1#16)).run = .running ∧
    (executing (tuneOf [] []) (channelAt 1#16)).params.ninstr ≤ (channelAt 1#16).instr.toNat ∧
    (channelAt 2#16).instr.toNat < (executing (tuneOf [shaped] []) (channelAt 2#16)).params.ninstr ∧
    (executing (tuneOf [shaped] []) (channelAt 2#16)).BeatReads 0#12 shapedOperands ∧
    shapedOperands.beatLen.toNat * (1#12).toNat < 2147483648 ∧
    shapedOperands.beatLen.toNat * (0#12).toNat = 0 ∧
    min (shapedOperands.att.toNat * shapedOperands.sampleRate.toNat / 4096) 8000 = 4000 :=
  ⟨by decide +kernel, by decide +kernel, by decide +kernel, by decide +kernel, beatReads_of (by decide +kernel),
    by decide, by decide, by decide⟩

/-- The longest note that fits `NFL` and the first that does not (U11). -/
theorem witness_longBeat :
    (executing { tuneOf [shaped] [] with beatLen := 2147483648#32 } (channelAt 2#16)).ch[0]?
      = some (channelAt 2#16) ∧
    (channelAt 2#16).instr.toNat
      < (executing { tuneOf [shaped] [] with beatLen := 2147483648#32 } (channelAt 2#16)).params.ninstr ∧
    (executing { tuneOf [shaped] [] with beatLen := 2147483648#32 } (channelAt 2#16)).BeatReads 0#12
      { shapedOperands with beatLen := 2147483648#32 } ∧
    2147483648 ≤ (2147483648#32).toNat * (1#12).toNat ∧ (2147483647#32).toNat * (1#12).toNat < 2147483648 :=
  ⟨by decide +kernel, by decide +kernel, beatReads_of (by decide +kernel), by decide, by decide⟩

/-- JumpEffect, ReptEffect, PanEffect: a channel at the engine's place; each of the three cases of `REPT`. -/
theorem witness_rept :
    (executing p1 { channelAt 5#16 with loop := 2#12 }).ch[0]? = some { channelAt 5#16 with loop := 2#12 } ∧
    (channelAt 5#16).loop = 0#12 ∧ ({ channelAt 5#16 with loop := 1#12 } : Channel).loop = 1#12 ∧
    2 ≤ ({ channelAt 5#16 with loop := 2#12 } : Channel).loop.toNat := by decide

/-- PanEffect: the two halves meet at 0 and 1. -/
theorem witness_pan : (0#8).toInt ≤ 0 ∧ (128#8).toInt ≤ 0 ∧ 0 < (1#8).toInt ∧ 0 < (127#8).toInt := by decide

/-- A store whose section is a `BEAT` repeated by `REPT 1`. -/
def repeating : Tune := tuneOf [ins] [0x2001#16, 0x4001#16, 0x3000#16]

/-- The channel at its two visits of the `REPT`: before the first `LOOP` is 0, before the second it is 1. -/
def visitChannel (j : Nat) : Channel := { channelAt 1#16 with loop := if j = 0 then 0#12 else 1#12 }

/-- RepeatIdiomRunsBodyAgain: both visits of `REPT 1`. -/
theorem witness_repeatIdiom :
    1 ≤ (1#12).toNat ∧ (visitChannel 0).loop = 0#12 ∧
    (∀ j, j ≤ (1#12).toNat →
      (executing repeating (visitChannel j)).Executing (visitChannel j) ∧ (visitChannel j).pc = 1#16 ∧
      (1#16).toNat + 1
        < (executing repeating (visitChannel j)).codeLen (executing repeating (visitChannel j)).cur ∧
      (executing repeating (visitChannel j)).codeWord (executing repeating (visitChannel j)).cur 1#16
        = some (encode (.rept 1#12)) ∧
      (executing repeating (visitChannel j)).codeWord (executing repeating (visitChannel j)).cur (1#16 + 1#16)
        = some (encode (.jump 0#12))) ∧
    (∀ j, j < (1#12).toNat → ∀ (u : State) (v : Channel),
      core.run 2 (executing repeating (visitChannel j)) = .next u → u.ch[u.cur]? = some v →
      (visitChannel (j + 1)).loop = v.loop) := by
  refine ⟨by decide, rfl, fun j _ => ?_, fun j hj u v hu hv => ?_⟩
  · have hm : (executing repeating (visitChannel j)).codeLen 0 = 3 ∧
        (executing repeating (visitChannel j)).codeWord 0 1#16 = some (encode (.rept 1#12)) ∧
        (executing repeating (visitChannel j)).codeWord 0 2#16 = some (encode (.jump 0#12)) := by
      show (loaded repeating).codeLen 0 = 3 ∧ (loaded repeating).codeWord 0 1#16 = some (encode (.rept 1#12)) ∧
        (loaded repeating).codeWord 0 2#16 = some (encode (.jump 0#12))
      decide +kernel
    exact ⟨executing_ok _ _, rfl, hm.1 ▸ (by decide), hm.2.1, hm.2.2⟩
  · have hj : j = 0 := by have : (1#12).toNat = 1 := rfl; omega
    subst hj
    have e : (after (core.run 2 (executing repeating (visitChannel 0)))
        fun t => (t.ch[t.cur]?).map Channel.loop) = some (some 1#12) := by decide +kernel
    rw [hu] at e
    simp only [after, nextOf, Option.map_some, hv, Option.some.injEq] at e
    exact e.symm

/-- The frames: each command answers a next state in some state, and each faulting one with its fault too. -/
theorem witness_frames :
    (nextOf (exec (.jump 4095#12) (executing p1 (channelAt 0#16)))).isSome = true ∧
    (nextOf (exec (.rept 0#12) (executing p1 (channelAt 0#16)))).isSome = true ∧
    (nextOf (exec (.pan 128#8) (executing p1 (channelAt 0#16)))).isSome = true ∧
    (nextOf (exec (.note 107#8) (executing p1 (channelAt 0#16)))).isSome = true ∧
    (nextOf (exec (.note 107#8) (executing (tuneOf [] []) (channelAt 0#16)))).isSome = true ∧
    (nextOf (exec (.seti 0#12) (executing p1 (channelAt 0#16)))).isSome = true ∧
    (nextOf (exec (.seti 1#12) (executing p1 (channelAt 0#16)))).isSome = true ∧
    (nextOf (exec (.beat 1#12) (executing p1 (channelAt 0#16)))).isSome = true ∧
    (nextOf (exec (.beat 1#12) (executing (tuneOf [] []) (channelAt 0#16)))).isSome = true := by decide +kernel

/-- OctaveAndIndex: the highest pitch, and the first of the octave below the top. -/
theorem witness_octave : (107 : Nat) ≤ 107 ∧ octaveOf 107 = 0 ∧ octaveOf 95 = 1 ∧ tableIndex 95 = 11 := by decide

/-- RoundDivRoundsToNearest: the two ranges meet at half the rate; the lowest rates, 1 and 2, at the base 0. -/
theorem witness_roundDiv :
    (1 : Int) ≤ 8000 ∧ ((8000 : Int) + 1) / 2 ≤ 4000 ∧ (0 : Int) ≤ 3999 ∧ (3999 : Int) < (8000 + 1) / 2 ∧
    -(8000 : Int) < 3999 - (8000 + 1) / 2 ∧ (0 : Int) < (2 + 1) / 2 ∧ -(2 : Int) < 0 - (2 + 1) / 2 ∧
    ¬ -(1 : Int) < 0 - (1 + 1) / 2 := by decide

/-- StageCountsSumToLength: attack and decay that just fit. -/
theorem witness_stageCounts : (2048#16).toNat * 8000 / 4096 + (1024#16).toNat * 8000 / 4096 ≤ 6000 := by decide

/-- SkipZeroStages: past the last stage, at a stage with a frame, at an empty one. -/
theorem witness_skip :
    -2147483648 ≤ (2147483646#32).toInt + (1#32).toInt ∧ (2147483646#32).toInt + (1#32).toInt ≤ 2147483647 ∧
    Channel.reset.ecur = 4 ∧ handMade.ecur.val = (0 : Fin 4).val ∧ handMade.efr.get 0 ≠ 0#32 ∧
    ({ handMade with ecur := 3 } : Channel).ecur.val = (3 : Fin 4).val ∧ handMade.efr.get 3 = 0#32 := by decide

/-- ModulationRanges, ContributionRange, MixWrapsModulo256: values at both ends of their ranges. -/
theorem witness_ranges :
    (-32768 : Int) ≤ -32768 ∧ (32767 : Int) ≤ 32767 ∧ (-2048 : Int) ≤ -2048 ∧ (2047 : Int) ≤ 2047 ∧
    0 ≤ (0#32).toInt ∧ (16776960#32).toInt ≤ 16776960 ∧ (0x7F#8).toInt + 0 ≤ 127 ∧ -128 ≤ (0x80#8).toInt + 0 := by
  decide

/-- SoundingFrame: the worked frame of R148; its stage's last frame; the note's last frame. -/
theorem witness_sounding :
    (rendering toneTune toneChannel).AtHead toneChannel ∧ 1 ≤ toneChannel.nfl.toInt ∧ toneChannel.cstep ≠ 0#16 ∧
    toneChannel.stage = some 2 ∧ toneChannel.efr.get 2 ≠ 0#32 ∧
    toneChannel.instr.toNat < (rendering toneTune toneChannel).params.ninstr ∧
    (rendering toneTune toneChannel).instrWord 0#12 6 = some 65535#16 ∧ 2 ≤ (toneChannel.efr.get 2).toNat ∧
    (({ toneChannel with nfl := 1#32, efr := #v[0#32, 0#32, 1#32, 0#32] } : Channel).efr.get 2).toNat = 1 ∧
    ({ toneChannel with nfl := 1#32, efr := #v[0#32, 0#32, 1#32, 0#32] } : Channel).nfl.toInt = 1 :=
  ⟨rendering_ok _ _, by decide, by decide, by decide, by decide, by decide +kernel, by decide +kernel, by decide,
    by decide, by decide⟩

/-- SilentFrameAndExecuteEntry: a silent note's last frame; a channel with no frame left. -/
theorem witness_silent :
    (rendering p1 { channelAt 3#16 with nfl := 1#32 }).AtHead { channelAt 3#16 with nfl := 1#32 } ∧
    1 ≤ ({ channelAt 3#16 with nfl := 1#32 } : Channel).nfl.toInt ∧ (channelAt 3#16).cstep = 0#16 ∧
    (rendering p1 (channelAt 0#16)).AtHead (channelAt 0#16) ∧ (channelAt 0#16).nfl.toInt ≤ 0 :=
  ⟨rendering_ok _ _, by decide, by decide, rendering_ok _ _, by decide⟩

/-- ChannelsInAscendingOrder: the first and the last of two channels. -/
theorem witness_channels :
    let s : State := { State.powerOn Params.initial 2 with run := .running, phase := .chanDone }
    s.LinesClear ∧ s.run = .running ∧ s.phase = .chanDone ∧ s.cur + 1 < s.ch.length ∧
    ({ s with cur := 1 } : State).ch.length ≤ ({ s with cur := 1 } : State).cur + 1 :=
  ⟨⟨rfl, rfl⟩, rfl, rfl, by decide, by decide⟩

/-- HostMovesObeyRunState: between frames, in each run state, with each move at the port; and a block without channels. -/
theorem witness_hostMoves :
    let s : State := State.powerOn Params.initial 1
    s.LinesClear ∧ s.busy = false ∧ ({ s with run := .running } : State).busy = false ∧
    ({ s with run := .faulted } : State).busy = false ∧
    ({ s with port := [.start] } : State).port = .start :: [] ∧
    ({ s with run := .running, port := [.pull] } : State).ch ≠ [] ∧
    ({ State.powerOn Params.initial 0 with run := .running, port := [.pull] } : State).ch = [] ∧
    ({ s with run := .faulted, port := [.pull] } : State).run ≠ .running ∧
    ({ s with port := [.status] } : State).port = .status :: [] ∧
    ({ s with run := .running, port := [.load (.image [])] } : State).run ≠ .halted ∧ s.port = [] :=
  ⟨⟨rfl, rfl⟩, by decide⟩

/-- HostWritesOnlyWhileHalted: the last word of P1's store, HALTED; and the same while RUNNING. -/
theorem witness_hostWrites :
    (loaded p1).LinesClear ∧ (loaded p1).busy = false ∧ (loaded p1).run = .halted ∧
    (loaded p1).tuneWordExists (.code 0 3) = true ∧ (loaded p1).tuneWordExists (.code 0 4) = false ∧
    ({ loaded p1 with run := .running } : State).busy = false ∧
    ({ loaded p1 with run := .running } : State).run ≠ .halted :=
  ⟨⟨rfl, rfl⟩, by decide +kernel⟩

/-- One sounding channel and one silent one, both with two frames left, and a frame asked for. -/
def twoReady : State :=
  { loaded toneTune with
    run := .running, port := [.pull], resetLine := false, statusLine := false, phase := .idle,
    ch := [{ toneChannel with nfl := 2#32 }, { channelAt 0#16 with nfl := 2#32 }] }

/-- FrameDeliversWrappedSum: both channels are ready, and the exact sums fit. -/
theorem witness_frameDelivers :
    twoReady.LinesClear ∧ twoReady.run = .running ∧ twoReady.phase = .idle ∧ twoReady.port = [.pull] ∧
    (∀ c ∈ twoReady.ch, twoReady.ChannelReady c) ∧ twoReady.MixFits := by
  refine ⟨⟨rfl, rfl⟩, rfl, rfl, rfl, ?_, by decide +kernel⟩
  intro c hc
  have hc : c ∈ [{ toneChannel with nfl := 2#32 }, { channelAt 0#16 with nfl := 2#32 }] := hc
  simp only [List.mem_cons, List.not_mem_nil, or_false] at hc
  rcases hc with rfl | rfl
  · exact ⟨by decide, fun _ => ⟨by decide +kernel, by decide +kernel, 2, by decide, by decide⟩⟩
  · exact ⟨by decide, fun h => absurd rfl h⟩

/-- BufferHoldsInterleavedFrames: an odd buffer of three slots and one frame. -/
theorem witness_buffer :
    pullsFor 3 ≤ [(⟨1#8, 2#8⟩ : Frame)].length ∧ 0 < 3 / 2 ∧ 3 % 2 = 1 ∧
    fillBuffer 3 [⟨1#8, 2#8⟩] = [1#8, 2#8, 0#8] := by decide

/-- The block of P4 (a) after its fault, with a request waiting. -/
def faultedState : State :=
  { loaded p1 with run := .faulted, fcause := .codeRange, fpc := 3#16, port := [.pull], resetLine := false }

/-- FaultedUntilReset. -/
theorem witness_faulted :
    faultedState.run = .faulted ∧ faultedState.resetLine = false ∧
    (∀ rest, faultedState.port ≠ .reset :: rest) ∧ ∃ t, step faultedState = .next t :=
  ⟨rfl, rfl, (fun rest h => by cases h), next_of_isSome (by decide +kernel)⟩

/-- JumpToItselfHangs: the program `JUMP 0`. -/
theorem witness_jumpToItself :
    (executing (p1With [0x3000#16]) (channelAt 0#16)).Executing (channelAt 0#16) ∧
    (channelAt 0#16).pc = BitVec.ofNat 16 (0#12).toNat ∧
    (channelAt 0#16).pc.toNat < (executing (p1With [0x3000#16]) (channelAt 0#16)).codeLen 0 ∧
    (executing (p1With [0x3000#16]) (channelAt 0#16)).codeWord 0 0#16 = some (encode (.jump 0#12)) :=
  ⟨executing_ok _ _, by decide, by decide +kernel, by decide +kernel⟩

/-- TuneStoreLockedWhileRunning and ChannelsAreIsolated: the worked frame, inside `EngineFrame`. -/
theorem witness_running :
    (rendering toneTune toneChannel).run ≠ .halted ∧ (rendering toneTune toneChannel).LinesClear ∧
    (rendering toneTune toneChannel).busy = true ∧ ∃ t, step (rendering toneTune toneChannel) = .next t :=
  ⟨by decide, ⟨rfl, rfl⟩, rfl, next_of_isSome (by decide +kernel)⟩

/-- ChannelsAreIsolated, where OUT stays: an execute phase; the head of a silent channel; the head of a channel that is
not silent but has no frame left. -/
theorem witness_outStays :
    ((executing p1 (channelAt 3#16)).LinesClear ∧ (executing p1 (channelAt 3#16)).busy = true ∧
      (executing p1 (channelAt 3#16)).phase ≠ .head ∧ ∃ t, step (executing p1 (channelAt 3#16)) = .next t) ∧
    ((rendering p1 { channelAt 3#16 with nfl := 1#32 }).busy = true ∧ (channelAt 3#16).cstep = 0#16 ∧
      ∃ t, step (rendering p1 { channelAt 3#16 with nfl := 1#32 }) = .next t) ∧
    ((rendering p1 { toneChannel with nfl := 0#32 }).busy = true ∧ toneChannel.cstep ≠ 0#16 ∧
      ({ toneChannel with nfl := 0#32 } : Channel).nfl.toInt ≤ 0 ∧
      ∃ t, step (rendering p1 { toneChannel with nfl := 0#32 }) = .next t) :=
  ⟨⟨⟨rfl, rfl⟩, rfl, by decide, next_of_isSome (by decide +kernel)⟩,
    ⟨rfl, rfl, next_of_isSome (by decide +kernel)⟩,
    ⟨rfl, by decide, by decide, next_of_isSome (by decide +kernel)⟩⟩

/-- Every channel of `rendering t c` is `c`. -/
theorem rendering_mem {t : Tune} {c u : Channel} (h : u ∈ (rendering t c).ch) : u = c := by
  have h : u ∈ [c] := h
  simpa using h

/-- The worked frame's state is sound. -/
theorem tone_sound : (rendering toneTune toneChannel).Sound where
  memory := by decide +kernel
  instruments := by decide +kernel
  stores := by decide +kernel
  engine := fun _ => by decide
  halted := fun h => by cases h
  cursor := fun u hu => by rw [rendering_mem hu]; decide
  pan := fun u hu => by rw [rendering_mem hu]; decide
  instr := fun u hu => by rw [rendering_mem hu]; decide
  pc := fun u hu => by rw [rendering_mem hu]; decide

/-- Its notes are counted. -/
theorem tone_notes : (rendering toneTune toneChannel).NotesSound where
  nonneg := fun u hu => by rw [rendering_mem hu]; decide
  counted := fun u hu _ _ => by rw [rendering_mem hu]; decide
  tabled := fun u hu _ => by rw [rendering_mem hu]; decide +kernel
  between := fun e c _ h _ => by cases h

/-- Its amplitudes stay in their registers. -/
theorem tone_amp : (rendering toneTune toneChannel).AmpSound :=
  fun u hu => by rw [rendering_mem hu]; decide

/-- StepKeepsSoundness, StepKeepsFrameCounts, StepKeepsAmplitudeBound: the worked frame, and its step. -/
theorem witness_invariants :
    (rendering toneTune toneChannel).Sound ∧ (rendering toneTune toneChannel).NotesSound ∧
    (rendering toneTune toneChannel).AmpSound ∧ (rendering toneTune toneChannel).BeatsFit ∧
    ∃ t, step (rendering toneTune toneChannel) = .next t :=
  ⟨tone_sound, tone_notes, tone_amp, fun bl h => by
    have e : (rendering toneTune toneChannel).beatLen = some 8000#32 := by decide +kernel
    rw [e] at h; cases h; decide, next_of_isSome (by decide +kernel)⟩

/-- A sound state whose next fetch finds a store that was sized but never loaded. -/
def unloadedState : State :=
  { State.powerOn { Params.initial with codeLen := [1] } 1 with run := .running, phase := .execute false }

/-- OnlyUnloadedWordsStop. -/
theorem witness_unloaded :
    unloadedState.Sound ∧ unloadedState.NotesSound ∧ step unloadedState = .fault .unloadedTuneWord := by
  have hm : ∀ u ∈ unloadedState.ch, u = Channel.reset := fun u hu => by
    have hu : u ∈ [Channel.reset] := hu
    simpa using hu
  refine ⟨⟨rfl, by decide, by decide, (fun _ => by decide), (fun h => by cases h), ?_, ?_, ?_, ?_⟩, ⟨?_, ?_, ?_, ?_⟩, ?_⟩
  · intro u hu; rw [hm u hu]; decide
  · intro u hu; rw [hm u hu]; decide
  · intro u hu; rw [hm u hu]; decide
  · intro u hu; rw [hm u hu]; decide
  · intro u hu; rw [hm u hu]; decide
  · intro u hu h; rw [hm u hu] at h; exact absurd h (by decide)
  · intro u hu h; rw [hm u hu] at h; exact absurd h (by decide)
  · intro e c _ _ hc; cases hc; decide
  · rfl

/-- BoundedAmplitudeAddsExactly: a stage that can still move the amplitude by the whole of its bound. -/
theorem witness_boundedAmplitude :
    ({ handMade with
        ampL := 50330800#32, ampR := 50330700#32,
        edl := #v[40#32, 0#32, 0#32, 0#32], edr := #v[90#32, 0#32, 0#32, 0#32] } : Channel).AmpOk ∧
    handMade.stage = some 0 := by decide

/-- PowerOnIsSound: the largest parameters of R4. -/
theorem witness_powerOn :
    ({ Params.initial with ninstr := 4096, codeLen := [4096, 0] } : Params).ninstr ≤ 4096 ∧
    ∀ m ∈ ({ Params.initial with ninstr := 4096, codeLen := [4096, 0] } : Params).codeLen, m ≤ 4096 := by decide

/-- RecordPacksAndUnpacks: a record with the reserved waveform 5 under the modulator. -/
theorem witness_record :
    (executing (tuneOf [{ ins with modwave := 5#3 }] []) (channelAt 0#16)).run = .running ∧
    (0#12).toNat < (executing (tuneOf [{ ins with modwave := 5#3 }] []) (channelAt 0#16)).params.ninstr ∧
    (executing (tuneOf [{ ins with modwave := 5#3 }] []) (channelAt 0#16)).instrWord 0#12 0 = some 0x0050#16 ∧
    4 < (0x0050#16).toNat / 16 % 8 := by decide +kernel

/-- LoadedImageReadsBack: program P3, its last record and the last word of its second store. -/
theorem witness_loadedImage :
    p3.instruments.length ≤ 4096 ∧ p3.code.length < 65536 ∧ (∀ code ∈ p3.code, code.length ≤ 4096) ∧
    (loaded p3).instrWord 1#12 0 = some 0x0012#16 ∧ (loaded p3).instrWord 1#12 7 = some 0x0102#16 ∧
    (loaded p3).codeWord 1 4#16 = some 0x3002#16 := by decide +kernel

/-- StatusAnsweredAlways: the line set inside a frame; the hang is `witness_jumpToItself`. -/
theorem witness_statusLine :
    ({ rendering toneTune toneChannel with statusLine := true } : State).resetLine = false ∧
    ({ rendering toneTune toneChannel with statusLine := true } : State).statusLine = true ∧
    ({ rendering toneTune toneChannel with statusLine := true } : State).busy = true := ⟨rfl, rfl, rfl⟩

/-- One instrument and one command in size, nothing loaded. -/
def sizedOnly (c : Channel) : State :=
  { State.powerOn { Params.initial with ninstr := 1, codeLen := [1] } 1 with
    run := .running, phase := .execute false, ch := [c] }

/-- UnloadedWordStops: nothing loaded; the fetch; the rendered frame. -/
theorem witness_unloadedWords :
    (sizedOnly Channel.reset).ch[(sizedOnly Channel.reset).cur]? = some Channel.reset ∧ (107#8).toNat ≤ 107 ∧
    Channel.reset.instr.toNat < (sizedOnly Channel.reset).params.ninstr ∧
    (sizedOnly Channel.reset).sampleRate = none ∧ (sizedOnly Channel.reset).instrWord 0#12 7 = none ∧
    (sizedOnly Channel.reset).instrWord 0#12 0 = none ∧ (sizedOnly Channel.reset).beatLen = none ∧
    (sizedOnly Channel.reset).instrWord 0#12 8 = none ∧
    (sizedOnly Channel.reset).Executing Channel.reset ∧
    Channel.reset.pc.toNat < (sizedOnly Channel.reset).codeLen (sizedOnly Channel.reset).cur ∧
    (sizedOnly Channel.reset).codeWord 0 0#16 = none ∧
    ({ sizedOnly toneChannel with phase := .head } : State).AtHead toneChannel ∧ 1 ≤ toneChannel.nfl.toInt ∧
    toneChannel.cstep ≠ 0#16 ∧ toneChannel.stage = some 2 ∧ toneChannel.efr.get 2 ≠ 0#32 ∧
    ({ sizedOnly toneChannel with phase := .head } : State).instrWord 0#12 6 = none :=
  ⟨rfl, by decide, by decide, rfl, rfl, rfl, rfl, rfl, ⟨⟨rfl, rfl⟩, rfl, ⟨false, rfl⟩, rfl⟩, by decide, rfl,
    ⟨⟨rfl, rfl⟩, rfl, rfl, rfl⟩, by decide, by decide, by decide, by decide, rfl⟩

/-- AnyFrameDeliversItsExactSum: the first frame of P4 (b), which executes commands; of P1, whose sum fits. -/
theorem witness_anyFrame :
    (State.launched Params.initial p4b).LinesClear ∧ (State.launched Params.initial p4b).run = .running ∧
    (((State.launched Params.initial p4b).frame 20).map fun e => e.state.run) = some .running ∧
    (((State.launched Params.initial p1).frame 20).map fun e => (e.state.run, decide e.Fits))
      = some (.running, true) :=
  ⟨⟨rfl, rfl⟩, by decide +kernel⟩

/-- A tune of `n` channels that are alike. -/
def manyChannels (n : Nat) : Tune := { p3 with code := List.replicate n [0x2001#16] }

/-- However many they are, all of them are there when the tune is launched. -/
theorem manyChannels_launched (n : Nat) :
    (State.launched Params.initial (manyChannels n)).ch = List.replicate n Channel.reset := by
  show List.replicate (List.replicate n [0x2001#16]).length Channel.reset = _
  rw [List.length_replicate]

/-- LaunchedTuneReadsBack: program P3; and 65536 channels, more than an image holds. -/
theorem witness_launched :
    p3.instruments.length ≤ 4096 ∧ (∀ code ∈ p3.code, code.length ≤ 4096) ∧
    (manyChannels 65536).instruments.length ≤ 4096 ∧
    (∀ code ∈ (manyChannels 65536).code, code.length ≤ 4096) ∧
    (State.launched Params.initial (manyChannels 65536)).ch = List.replicate 65536 Channel.reset :=
  ⟨by decide, by decide, by decide, fun code h => by rw [List.eq_of_mem_replicate h]; decide,
    manyChannels_launched 65536⟩

end Sys2Proof.Tests
end

section
/-! What one step does to the channels (44_frame_engine.md R181, R182), once: the engine acts on one channel or on none, and
the host resets them all or leaves them. A property of single channels is then kept by every step as soon as reset has it
and the four actions on a channel keep it. -/

namespace Sys2Proof.Machine

/-! ### The actions on one channel -/

/-- The channel after a command that starts no note: `NOTE`, `SETI`, `JUMP`, `REPT` or `PAN` (R162, R163, R165 to R167). -/
inductive State.Prepares (s : State) (c : Channel) : Channel → Prop
  | note (cs ms : Word) : s.Prepares c (c.setSteps cs ms).advance
  | seti (i : BitVec 12) (a b : Waveform) (hi : s.instrValid i = true) : s.Prepares c (c.setInstr i a b).advance
  | jump (target : BitVec 12) : s.Prepares c (c.setPc (targetWord target))
  | rept (count : BitVec 12) : s.Prepares c (c.repeatStep count)
  | pan (offset : BitVec 8) :
    s.Prepares c (c.setPan (BitVec.ofInt 9 (panLeft (offsetValue offset)))
      (BitVec.ofInt 9 (panRight (offsetValue offset)))).advance

/-- The engine's actions on its channel `c`: the registers after each, and where the engine goes. -/
inductive State.ChannelStep (s : State) (c : Channel) : Channel → Phase → Prop
  | prepare {c' : Channel} (hx : ∃ e, s.phase = .execute e) (hpc : c.pc.toNat < s.codeLen s.cur)
      (h : s.Prepares c c') : s.ChannelStep c c' s.phase
  | beat (o : BeatOperands) (count : BitVec 12) (hx : ∃ e, s.phase = .execute e)
      (hpc : c.pc.toNat < s.codeLen s.cur) (hv : s.instrValid c.instr = true)
      (ho : s.beatOperands c.instr = some o) :
      s.ChannelStep c (c.startNote o (o.noteFrames count) s.fresh).advance (afterExecute s.phase)
  | skip (hg : c.generating = true) (hs : c.silent = true) : s.ChannelStep c c.countFrame (afterFrame c.countFrame)
  | render (k : Fin 4) (ma : Word) (hg : c.generating = true) (hs : c.silent = false) (hk : c.stage = some k)
      (he : c.efr.get k ≠ 0#32) :
      s.ChannelStep c (c.rendered s.params ma k).countFrame (afterFrame (c.rendered s.params ma k).countFrame)

/-- The engine's actions: it enters the execute phase, acts on its channel, takes a fault, or goes on to the next
channel. -/
inductive State.EngineStep (s : State) : State → Prop
  | enter {c : Channel} (hc : s.chan = some c) (hg : c.generating = false) :
    s.EngineStep { s with phase := .execute false }
  | act {c c' : Channel} {p : Phase} (o : Frame) (n : Nat) (hc : s.chan = some c) (h : s.ChannelStep c c' p) :
    s.EngineStep { s.setChan c' with out := o, phase := p, fresh := n }
  | fault (cause : FaultCause) (pc0 : Word) : s.EngineStep (s.raise cause pc0)
  | next : s.EngineStep s.nextChannel

/-! ### Every step is one of them, or an answer to the host -/

/-- A command fetched inside the store acts on the engine's channel, or takes a fault. -/
theorem exec_engineStep {i : Instr} {s t : State} {c : Channel} (hx : ∃ e, s.phase = .execute e)
    (hc : s.chan = some c) (hpc : c.pc.toNat < s.codeLen s.cur) (h : exec i s = .next t) : s.EngineStep t := by
  have same : ∀ {d}, s.chan = some d → d = c := fun hd => Option.some.inj (hd.symm.trans hc)
  have prepared : ∀ {c'}, s.Prepares c c' → s.EngineStep (s.setChan c') :=
    fun hp => .act s.out s.fresh hc (.prepare hx hpc hp)
  cases i with
  | note pitch =>
    obtain ⟨d, hd, ⟨cs, ms, rfl⟩ | ⟨cause, rfl⟩⟩ := execNote_next h
    · rw [same hd]; exact prepared (.note cs ms)
    · exact .fault cause _
  | seti index =>
    obtain ⟨d, hd, ⟨a, b, hi, rfl⟩ | ⟨cause, rfl⟩⟩ := execSeti_next h
    · rw [same hd]; exact prepared (.seti index a b hi)
    · exact .fault cause _
  | beat count =>
    obtain ⟨d, hd, ⟨o, hv, ho, rfl⟩ | ⟨cause, rfl⟩⟩ := execBeat_next h
    · rw [same hd] at hv ho ⊢
      exact .act s.out _ hc (.beat o count hx hpc hv ho)
    · exact .fault cause _
  | jump target =>
    obtain ⟨d, hd, rfl⟩ := execJump_next h
    rw [same hd]; exact prepared (.jump target)
  | rept count =>
    obtain ⟨d, hd, rfl⟩ := execRept_next h
    rw [same hd]; exact prepared (.rept count)
  | pan offset =>
    obtain ⟨d, hd, rfl⟩ := execPan_next h
    rw [same hd]; exact prepared (.pan offset)

/-- The step of an execute phase is one of the engine's actions (R168). -/
theorem State.executeOne_engineStep {s t : State} (hx : ∃ e, s.phase = .execute e) (h : s.executeOne = .next t) :
    s.EngineStep t := by
  obtain ⟨c, hc, ⟨i, hf, h⟩ | ⟨cause, -, rfl⟩⟩ := State.executeOne_next h
  · exact exec_engineStep hx hc (State.fetch_command_lt hf) h
  · exact .fault cause _

/-- The head of `ChannelFrame` is one of the engine's actions (R181). -/
theorem State.channelHead_engineStep {s t : State} (h : s.channelHead = .next t) : s.EngineStep t := by
  obtain ⟨c, hc, ⟨hg, rfl⟩ | ⟨hg, o, c1, hr, rfl⟩⟩ := State.channelHead_next h
  · exact .enter hc hg
  · obtain ⟨hs, rfl, rfl⟩ | ⟨hs, k, ma, hk, he, -, -, rfl, rfl⟩ := State.renderOrSkip_ok hr
    · exact .act _ s.fresh hc (.skip hg hs)
    · exact .act _ s.fresh hc (.render k ma hg hs hk (by simpa [Channel.stageEmpty] using he))

/-- A step answers a line, is the host's turn, or is one of the engine's actions. -/
theorem step_cases {s t : State} (h : step s = .next t) :
    t = s.answerResetLine ∨ t = s.answerStatusLine ∨ (s.busy = false ∧ t = s.hostTurn) ∨
      (s.busy = true ∧ s.EngineStep t) := by
  obtain ⟨-, rfl⟩ | ⟨-, -, rfl⟩ | ⟨-, hb, rfl⟩ | ⟨-, hb, -, h⟩ | ⟨-, hb, hx, h⟩ | ⟨-, hb, -, rfl⟩ := step_next h
  · exact .inl rfl
  · exact .inr (.inl rfl)
  · exact .inr (.inr (.inl ⟨hb, rfl⟩))
  · exact .inr (.inr (.inr ⟨hb, State.channelHead_engineStep h⟩))
  · exact .inr (.inr (.inr ⟨hb, State.executeOne_engineStep hx h⟩))
  · exact .inr (.inr (.inr ⟨hb, .next⟩))

/-! ### The fields that the moves between channels and the host's moves leave alone -/

@[simp] theorem State.nextChannel_ch (s : State) : s.nextChannel.ch = s.ch := by
  unfold State.nextChannel; split <;> rfl

@[simp] theorem State.nextChannel_params (s : State) : s.nextChannel.params = s.params := by
  unfold State.nextChannel; split <;> rfl

@[simp] theorem State.nextChannel_mem (s : State) : s.nextChannel.mem = s.mem := by
  unfold State.nextChannel; split <;> rfl

@[simp] theorem State.nextChannel_run (s : State) : s.nextChannel.run = s.run := by
  unfold State.nextChannel; split <;> rfl

@[simp] theorem State.startFrame_ch (s : State) : s.startFrame.ch = s.ch := by
  unfold State.startFrame; split <;> rfl

@[simp] theorem State.startFrame_params (s : State) : s.startFrame.params = s.params := by
  unfold State.startFrame; split <;> rfl

@[simp] theorem State.startFrame_mem (s : State) : s.startFrame.mem = s.mem := by
  unfold State.startFrame; split <;> rfl

@[simp] theorem State.startFrame_run (s : State) : s.startFrame.run = s.run := by
  unfold State.startFrame; split <;> rfl

/-- Where `EngineFrame` goes from one channel to the next: to a channel that exists, or between frames (R182). -/
theorem State.nextChannel_place (s : State) :
    (s.nextChannel.phase = .head ∧ s.nextChannel.cur < s.ch.length) ∨ s.nextChannel.phase = .idle := by
  unfold State.nextChannel
  split
  · exact .inl ⟨rfl, ‹_›⟩
  · exact .inr rfl

/-- Where a frame request takes the engine: to channel 0 if it exists, or between frames (R182). -/
theorem State.startFrame_place (s : State) :
    (s.startFrame.phase = .head ∧ s.startFrame.cur < s.ch.length) ∨ s.startFrame.phase = .idle := by
  unfold State.startFrame
  split
  · exact .inl ⟨rfl, ‹_›⟩
  · exact .inr rfl

/-- A channel generates exactly while its note has a frame left (R28). -/
theorem Channel.generating_iff {c : Channel} : c.generating = true ↔ 1 ≤ c.nfl.toInt := by
  simp [Channel.generating]

/-- A channel is silent exactly where its carrier step is 0 (R43). -/
theorem Channel.silent_iff {c : Channel} : c.silent = true ↔ c.cstep = 0#16 := by
  simp [Channel.silent]

/-- Between frames the engine is not busy. -/
theorem State.busy_of_idle {s : State} (h : s.phase = .idle) : s.busy = false := by
  simp [State.busy, h]

/-- What the host's turn can do to the channels, the store and the engine's place: leave the state's own registers, go
between frames with every channel at reset, load while HALTED, start, or ask for a frame (R186). -/
theorem State.hostTurn_cases (s : State) :
    (∃ port sent, s.hostTurn = { s with port := port, sent := sent }) ∨
    (∃ port, s.hostTurn = State.hostReset { s with port := port }) ∨
    (∃ port item, s.run = .halted ∧ s.hostTurn = State.load { s with port := port } item) ∨
    (∃ port, s.run = .halted ∧ s.hostTurn = { s with port := port, run := .running, phase := .idle, cur := 0 }) ∨
    (∃ port, s.run = .running ∧ s.hostTurn = State.startFrame { s with port := port }) := by
  unfold State.hostTurn
  split
  · exact .inl ⟨s.port, s.sent, rfl⟩
  · rename_i m rest _
    cases m with
    | reset => exact .inr (.inl ⟨rest, rfl⟩)
    | load item =>
      by_cases hr : s.run = .halted
      · exact .inr (.inr (.inl ⟨rest, item, hr, if_pos hr⟩))
      · exact .inl ⟨rest, s.sent, if_neg hr⟩
    | start =>
      by_cases hr : s.run = .halted
      · exact .inr (.inr (.inr (.inl ⟨rest, hr, if_pos hr⟩)))
      · exact .inl ⟨rest, s.sent, if_neg hr⟩
    | pull =>
      by_cases hr : s.run = .running
      · exact .inr (.inr (.inr (.inr ⟨rest, hr, if_pos hr⟩)))
      · exact .inl ⟨rest, s.sent, if_neg hr⟩
    | status => exact .inl ⟨rest, _, rfl⟩

/-- What a `LOAD` can do: write one word, store the parts of an image, or nothing (R64, R74). -/
theorem State.load_cases (s : State) (item : LoadItem) :
    (∃ a w, s.load item = { s with mem := s.mem.writeWord a w }) ∨
    (∃ ws p, parseImage ws = some p ∧ s.load item = s.loadParts p) ∨ s.load item = s := by
  cases item with
  | word a w =>
    simp only [State.load]
    split
    · exact .inl ⟨_, _, rfl⟩
    · exact .inr (.inr rfl)
  | image ws =>
    simp only [State.load]
    split
    · exact .inr (.inl ⟨ws, _, ‹_›, rfl⟩)
    · exact .inr (.inr rfl)

/-- A `LOAD` leaves the channels and the parameters, or sets every channel to reset (assumption 7). -/
theorem State.load_channels (s : State) (item : LoadItem) :
    ((s.load item).ch = s.ch ∧ (s.load item).params = s.params) ∨
      ∃ n, (s.load item).ch = List.replicate n Channel.reset := by
  obtain ⟨a, w, h⟩ | ⟨ws, p, -, h⟩ | h := s.load_cases item
  · rw [h]; exact .inl ⟨rfl, rfl⟩
  · rw [h]; exact .inr ⟨_, rfl⟩
  · rw [h]; exact .inl ⟨rfl, rfl⟩

/-- The host's turn leaves the channels and the parameters, or sets every channel to reset. -/
theorem State.hostTurn_channels (s : State) :
    (s.hostTurn.ch = s.ch ∧ s.hostTurn.params = s.params) ∨
      ∃ n, s.hostTurn.ch = List.replicate n Channel.reset := by
  obtain ⟨port, sent, h⟩ | ⟨port, h⟩ | ⟨port, item, -, h⟩ | ⟨port, -, h⟩ | ⟨port, -, h⟩ := s.hostTurn_cases
  · rw [h]; exact .inl ⟨rfl, rfl⟩
  · rw [h]; exact .inr ⟨_, rfl⟩
  · rw [h]; exact State.load_channels _ item
  · rw [h]; exact .inl ⟨rfl, rfl⟩
  · rw [h]; exact .inl ⟨by simp, by simp⟩

/-- All that a step can do to the channels: nothing, all of them at reset, or one action on the engine's channel. -/
theorem step_channels {s t : State} (h : step s = .next t) :
    (t.ch = s.ch ∧ t.params = s.params) ∨ (∃ n, t.ch = List.replicate n Channel.reset) ∨
      ∃ c c' p, s.busy = true ∧ s.chan = some c ∧ s.ChannelStep c c' p ∧ t.ch = s.ch.set s.cur c' ∧
        t.params = s.params := by
  obtain rfl | rfl | ⟨-, rfl⟩ | ⟨hb, h⟩ := step_cases h
  · exact .inr (.inl ⟨_, s.answerResetLine_ch⟩)
  · exact .inl ⟨rfl, rfl⟩
  · exact s.hostTurn_channels.imp_right .inl
  · cases h with
    | enter => exact .inl ⟨rfl, rfl⟩
    | act o n hc ha => exact .inr (.inr ⟨_, _, _, hb, hc, ha, rfl, rfl⟩)
    | fault => exact .inl ⟨by simp, by simp⟩
    | next => exact .inl ⟨by simp, by simp⟩

/-- A property of single channels, which may name NINSTR, is kept by every step where reset has it and every action on a
channel keeps it. -/
theorem step_keeps_forall_channels {s t : State} (P : Nat → Channel → Prop) (hreset : ∀ n, P n Channel.reset)
    (hact : ∀ c c' p, s.busy = true → s.chan = some c → s.ChannelStep c c' p → P s.params.ninstr c →
      P s.params.ninstr c')
    (h : step s = .next t) (hs : ∀ c ∈ s.ch, P s.params.ninstr c) : ∀ c ∈ t.ch, P t.params.ninstr c := by
  intro u hu
  obtain ⟨hch, hp⟩ | ⟨n, hch⟩ | ⟨c, c', p, hb, hc, ha, hch, hp⟩ := step_channels h
  · rw [hp]; exact hs u (hch ▸ hu)
  · rw [hch] at hu
    rw [List.eq_of_mem_replicate hu]; exact hreset _
  · rw [hp]
    obtain hu | rfl := List.mem_or_eq_of_mem_set (hch ▸ hu)
    · exact hs u hu
    · exact hact c _ p hb hc ha (hs c (State.chan_mem hc))

end Sys2Proof.Machine
end

section
/-! Soundness (10_state.md R46): the store and the parameters, the engine's place, and I2, I4, I5 and I6 of one channel under
each action. -/

namespace Sys2Proof.Machine

/-! ### The store and the parameters -/

/-- The command stores of an image are within R4: a longer one is no image. -/
theorem parseStores_length_le {n : Nat} {ws : List Word} {stores : List (List Word)} {rest : List Word}
    (h : parseStores n ws = some (stores, rest)) : ∀ code ∈ stores, code.length ≤ 4096 := by
  induction n generalizing ws stores with
  | zero => cases h; simp
  | succ n ih =>
    cases ws with
    | nil => cases h
    | cons len ws =>
      simp only [parseStores] at h
      split at h
      · rename_i hl
        split at h
        · rename_i tail _ ht
          cases h
          have hlen : len.toNat ≤ 4096 := hl.1
          intro code hc
          obtain rfl | hc := List.mem_cons.1 hc
          · simp only [List.length_take]; omega
          · exact ih ht code hc
        · cases h
      · cases h

/-- The sizes of an image are within R4. -/
theorem parseImage_inRange {ws : List Word} {p : ImageParts} (h : parseImage ws = some p) :
    p.ninstr ≤ 4096 ∧ ∀ code ∈ p.stores, code.length ≤ 4096 := by
  unfold parseImage at h
  split at h
  · split at h
    · rename_i hn
      split at h
      · rename_i stores hs
        cases h
        exact ⟨hn.1, parseStores_length_le hs⟩
      · cases h
    · cases h
  · cases h

/-- A `LOAD` keeps the parameters within R4. -/
theorem State.load_inRange {s : State} (item : LoadItem) (hi : s.params.ninstr ≤ 4096)
    (hc : ∀ n ∈ s.params.codeLen, n ≤ 4096) :
    (s.load item).params.ninstr ≤ 4096 ∧ ∀ n ∈ (s.load item).params.codeLen, n ≤ 4096 := by
  obtain ⟨a, w, h⟩ | ⟨ws, p, hp, h⟩ | h := s.load_cases item
  · rw [h]; exact ⟨hi, hc⟩
  · obtain ⟨hn, hs⟩ := parseImage_inRange hp
    rw [h]
    refine ⟨hn, fun n hm => ?_⟩
    obtain ⟨code, hcode, rfl⟩ := List.mem_map.1 hm
    exact hs code hcode
  · rw [h]; exact ⟨hi, hc⟩

/-- Only a `LOAD` while HALTED writes the tune store or the parameters (R61, R74). -/
theorem step_store {s t : State} (h : step s = .next t) :
    (t.mem = s.mem ∧ t.params = s.params) ∨
      ∃ port item, s.run = .halted ∧ t = State.load { s with port := port } item := by
  obtain rfl | rfl | ⟨-, rfl⟩ | ⟨-, h⟩ := step_cases h
  · exact .inl ⟨rfl, rfl⟩
  · exact .inl ⟨rfl, rfl⟩
  · obtain ⟨port, sent, h⟩ | ⟨port, h⟩ | ⟨port, item, hr, h⟩ | ⟨port, -, h⟩ | ⟨port, -, h⟩ := s.hostTurn_cases
    · rw [h]; exact .inl ⟨rfl, rfl⟩
    · rw [h]; exact .inl ⟨rfl, rfl⟩
    · exact .inr ⟨port, item, hr, h⟩
    · rw [h]; exact .inl ⟨rfl, rfl⟩
    · rw [h]; exact .inl ⟨by simp, by simp⟩
  · cases h with
    | enter => exact .inl ⟨rfl, rfl⟩
    | act => exact .inl ⟨rfl, rfl⟩
    | fault => exact .inl ⟨by simp, by simp⟩
    | next => exact .inl ⟨by simp, by simp⟩

/-- Every step keeps the memory canonical. -/
theorem step_keeps_memory_wf {s t : State} (h : step s = .next t) (hm : s.mem.wf = true) : t.mem.wf = true := by
  obtain ⟨e, -⟩ | ⟨port, item, -, rfl⟩ := step_store h
  · rwa [e]
  · exact State.load_wf _ item hm

/-- Every step keeps the parameters within R4. -/
theorem step_keeps_inRange {s t : State} (h : step s = .next t) (hi : s.params.ninstr ≤ 4096)
    (hc : ∀ n ∈ s.params.codeLen, n ≤ 4096) :
    t.params.ninstr ≤ 4096 ∧ ∀ n ∈ t.params.codeLen, n ≤ 4096 := by
  obtain ⟨-, e⟩ | ⟨port, item, -, rfl⟩ := step_store h
  · rw [e]; exact ⟨hi, hc⟩
  · exact State.load_inRange item hi hc

/-- Every command store is within R4 where the parameters are. -/
theorem State.codeLen_le {s : State} (h : ∀ n ∈ s.params.codeLen, n ≤ 4096) (c : Nat) : s.codeLen c ≤ 4096 := by
  unfold State.codeLen
  rw [List.getD_eq_getElem?_getD]
  cases hn : s.params.codeLen[c]? with
  | none => simp
  | some n => exact h n (List.mem_of_getElem? hn)

/-! ### The engine's place, and HALTED channels -/

/-- A `LOAD` leaves `RUN`. -/
@[simp] theorem State.load_run (s : State) (item : LoadItem) : (s.load item).run = s.run := by
  obtain ⟨a, w, h⟩ | ⟨ws, p, -, h⟩ | h := s.load_cases item <;> simp [h]

/-- A HALTED engine is not busy. -/
theorem State.busy_of_halted {s : State} (h : s.run = .halted) : s.busy = false := by
  simp [State.busy, h]

/-- The host leaves the engine between frames, or at the head of a channel that exists. -/
theorem State.hostTurn_place {s : State} (hb : s.busy = false) (h : s.hostTurn.busy = true) :
    s.hostTurn.phase = .head ∧ s.hostTurn.cur < s.hostTurn.ch.length := by
  obtain ⟨port, sent, e⟩ | ⟨port, e⟩ | ⟨port, item, hr, e⟩ | ⟨port, -, e⟩ | ⟨port, -, e⟩ := s.hostTurn_cases
  · rw [e] at h; cases hb.symm.trans h
  · rw [e, State.busy_of_halted rfl] at h; cases h
  · rw [e, State.busy_of_halted (by simpa using hr)] at h; cases h
  · rw [e, State.busy_of_idle rfl] at h; cases h
  · rw [e] at h ⊢
    obtain ⟨hp, hc⟩ | hp := State.startFrame_place { s with port := port }
    · exact ⟨hp, by simpa using hc⟩
    · rw [State.busy_of_idle hp] at h; cases h

/-- Every step leaves a busy engine at a channel that exists. -/
theorem step_keeps_place {s t : State} (h : step s = .next t) (hs : s.busy = true → s.cur < s.ch.length)
    (ht : t.busy = true) : t.cur < t.ch.length := by
  obtain rfl | rfl | ⟨hb, rfl⟩ | ⟨hb, h⟩ := step_cases h
  · rw [State.busy_of_idle s.answerResetLine_phase] at ht; cases ht
  · exact hs ht
  · exact (State.hostTurn_place hb ht).2
  · cases h with
    | enter => exact hs hb
    | act => simpa using hs hb
    | fault cause pc0 => rw [State.busy_of_idle (s.raise_phase cause pc0)] at ht; cases ht
    | next =>
      obtain ⟨-, hc⟩ | hp := s.nextChannel_place
      · simpa using hc
      · rw [State.busy_of_idle hp] at ht; cases ht

/-- A step that ends HALTED began there, or has set every channel to reset (R40, R231). -/
theorem step_halted {s t : State} (h : step s = .next t) (ht : t.run = .halted) :
    s.run = .halted ∨ ∃ n, t.ch = List.replicate n Channel.reset := by
  obtain rfl | rfl | ⟨-, rfl⟩ | ⟨hb, h⟩ := step_cases h
  · exact .inr ⟨_, s.answerResetLine_ch⟩
  · exact .inl ht
  · obtain ⟨port, sent, e⟩ | ⟨port, e⟩ | ⟨port, item, hr, e⟩ | ⟨port, hr, e⟩ | ⟨port, -, e⟩ := s.hostTurn_cases
    · rw [e] at ht; exact .inl ht
    · rw [e]; exact .inr ⟨_, rfl⟩
    · exact .inl hr
    · exact .inl hr
    · rw [e] at ht; exact .inl (by simpa using ht)
  · cases h with
    | enter => exact .inl ht
    | act => exact .inl ht
    | fault cause pc0 =>
      rw [State.raise_running ((State.busy_iff s).1 hb).1] at ht; cases ht
    | next => exact .inl (by simpa using ht)

/-- Every step that ends HALTED ends with every channel at reset. -/
theorem step_keeps_halted {s t : State} (h : step s = .next t)
    (hs : s.run = .halted → ∀ c ∈ s.ch, c = Channel.reset) (ht : t.run = .halted) :
    ∀ c ∈ t.ch, c = Channel.reset := by
  obtain hr | ⟨n, hch⟩ := step_halted h ht
  · exact step_keeps_forall_channels (fun _ c => c = Channel.reset) (fun _ => rfl)
      (fun c c' p hb => absurd hb (by simp [State.busy_of_halted hr])) h (hs hr)
  · rw [hch]; exact fun c hc => List.eq_of_mem_replicate hc

/-! ### I2: the cursor -/

/-- The channel keeps its amplitudes and its envelope. -/
structure Channel.EnvelopeSame (c c' : Channel) : Prop where
  ampL : c'.ampL = c.ampL
  ampR : c'.ampR = c.ampR
  efr : c'.efr = c.efr
  edl : c'.edl = c.edl
  edr : c'.edr = c.edr
  ecur : c'.ecur = c.ecur

/-- The channel keeps all that its note is made of: the envelope and the frames left. -/
structure Channel.NoteSame (c c' : Channel) : Prop extends Channel.EnvelopeSame c c' where
  nfl : c'.nfl = c.nfl

/-- `REPT` leaves every register but `LOOP` and `PC` (R166). -/
theorem Channel.repeatStep_frame (c : Channel) (count : BitVec 12) :
    c.repeatStep count = { c with loop := (c.repeatStep count).loop, pc := (c.repeatStep count).pc } := by
  obtain ⟨-, e⟩ | ⟨-, e⟩ | ⟨-, -, e⟩ := c.repeatStep_cases count <;> rw [e]

/-- Going on to the next command leaves the note. -/
theorem Channel.advance_noteSame (c : Channel) : c.NoteSame c.advance := ⟨⟨rfl, rfl, rfl, rfl, rfl, rfl⟩, rfl⟩

/-- A command that starts no note leaves the note. -/
theorem State.Prepares.noteSame {s : State} {c c' : Channel} (h : s.Prepares c c') : c.NoteSame c' := by
  cases h with
  | rept count => rw [c.repeatStep_frame count]; exact ⟨⟨rfl, rfl, rfl, rfl, rfl, rfl⟩, rfl⟩
  | _ => exact ⟨⟨rfl, rfl, rfl, rfl, rfl, rfl⟩, rfl⟩

/-- Counting a frame of the note leaves the envelope (R181). -/
theorem Channel.countFrame_envelopeSame (c : Channel) : c.EnvelopeSame c.countFrame :=
  ⟨rfl, rfl, rfl, rfl, rfl, rfl⟩

/-- Advancing the phases leaves the envelope (R148). -/
theorem Channel.advancePhases_envelopeSame (c : Channel) (p : Params) (ma : Word) :
    c.EnvelopeSame (c.advancePhases p ma) :=
  ⟨rfl, rfl, rfl, rfl, rfl, rfl⟩

/-- The envelope of the note that `BEAT` starts is the fresh one past its empty stages (R164). -/
theorem Channel.startNote_envelopeSame (o : BeatOperands) (len n : Nat) (c : Channel) :
    (c.freshNote o len n).skipZeroStages.EnvelopeSame (c.startNote o len n) :=
  ⟨by simp, by simp, by simp, by simp, by simp, by simp⟩

/-- The stage is a function of the cursor alone. -/
theorem Channel.stage_congr {c c' : Channel} (h : c'.ecur = c.ecur) : c'.stage = c.stage := by
  simp [Channel.stage, h]

/-- I2 is about the envelope alone. -/
theorem Channel.CursorOk.congr {c c' : Channel} (h : c.CursorOk) (hs : c.EnvelopeSame c') : c'.CursorOk := by
  intro k hk
  rw [hs.efr]; exact h k (Channel.stage_congr hs.ecur ▸ hk)

/-- `SkipZeroStages` ends at a stage with a frame left or past the last (R141). -/
theorem Channel.skipZeroStages_cursorOk (c : Channel) : c.skipZeroStages.CursorOk :=
  Channel.skipStages_cursorOk 4 c (by omega)

/-- A fresh note begins at a stage with a frame left, or has none (R164). -/
theorem Channel.startNote_cursorOk (o : BeatOperands) (len n : Nat) (c : Channel) :
    (c.startNote o len n).CursorOk :=
  (c.freshNote o len n).skipZeroStages_cursorOk.congr (c.startNote_envelopeSame o len n)

/-- The two ways `EnvelopeTick` ends: the stage has a frame left and stays active, or it has none and is passed with the
empty stages after it (R142). -/
theorem Channel.envelopeTick_cases (c : Channel) (k : Fin 4) :
    (c.efr.get k - 1#32 ≠ 0#32 ∧ c.envelopeTick k = (c.applyDelta k).countStage k) ∨
      (c.efr.get k - 1#32 = 0#32 ∧
        c.envelopeTick k = (((c.applyDelta k).countStage k).passStage k).skipZeroStages) := by
  have he : ((c.applyDelta k).countStage k).stageEmpty k = true ↔ c.efr.get k - 1#32 = 0#32 := by
    rw [Channel.stageEmpty_iff, Channel.countStage_efr, get_set_same, Channel.applyDelta_efr]
  by_cases h : c.efr.get k - 1#32 = 0#32
  · exact .inr ⟨h, if_pos (he.2 h)⟩
  · exact .inl ⟨h, if_neg (mt he.1 h)⟩

/-- `EnvelopeTick` keeps I2. -/
theorem Channel.envelopeTick_cursorOk (c : Channel) {k : Fin 4} (hk : c.stage = some k) :
    (c.envelopeTick k).CursorOk := by
  obtain ⟨hne, e⟩ | ⟨-, e⟩ := c.envelopeTick_cases k
  · rw [e]
    intro j hj
    obtain rfl : k = j := Option.some.inj (hk.symm.trans hj)
    rwa [Channel.countStage_efr, get_set_same, Channel.applyDelta_efr]
  · rw [e]; exact Channel.skipZeroStages_cursorOk _

/-- Every action of the engine on a channel keeps I2. -/
theorem State.ChannelStep.cursorOk {s : State} {c c' : Channel} {p : Phase} (h : s.ChannelStep c c' p)
    (hc : c.CursorOk) : c'.CursorOk := by
  cases h with
  | prepare _ _ h => exact hc.congr h.noteSame.toEnvelopeSame
  | beat o count => exact (c.startNote_cursorOk o _ _).congr (Channel.advance_noteSame _).toEnvelopeSame
  | skip => exact hc.congr c.countFrame_envelopeSame
  | render k ma _ _ hk =>
    exact ((c.advancePhases s.params ma).envelopeTick_cursorOk hk).congr (Channel.countFrame_envelopeSame _)

/-! ### I4: the pans -/

/-- I4 is about the pans alone. -/
theorem Channel.PanOk.congr {c c' : Channel} (h : c.PanOk) (hl : c'.panL = c.panL) (hr : c'.panR = c.panR) :
    c'.PanOk := by
  unfold Channel.PanOk at *; rwa [hl, hr]

/-- A pan value as the nine-bit register holds it. -/
theorem toNat_ofInt_pan {v : Int} (h0 : 0 ≤ v) (h1 : v ≤ 256) : (BitVec.ofInt 9 v).toNat = v.toNat := by
  rw [BitVec.toNat_ofInt]; omega

/-- The pans of an offset are even, at most 256, and one of them is 256 (R167). -/
theorem Channel.setPan_panOk (c : Channel) (offset : BitVec 8) :
    (c.setPan (BitVec.ofInt 9 (panLeft (offsetValue offset)))
      (BitVec.ofInt 9 (panRight (offsetValue offset)))).PanOk := by
  have hlo : -128 ≤ offset.toInt := offset.le_toInt
  have hhi : offset.toInt < 128 := offset.toInt_lt
  unfold Channel.PanOk
  rw [Channel.setPan_panL, Channel.setPan_panR, offsetValue]
  by_cases h : offset.toInt ≤ 0
  · rw [panLeft, panRight, if_pos h, if_pos h, toNat_ofInt_pan (by omega) (by omega),
      toNat_ofInt_pan (by omega) (by omega)]
    omega
  · rw [panLeft, panRight, if_neg h, if_neg h, toNat_ofInt_pan (by omega) (by omega),
      toNat_ofInt_pan (by omega) (by omega)]
    omega

/-- A command that starts no note keeps I4. -/
theorem State.Prepares.panOk {s : State} {c c' : Channel} (h : s.Prepares c c') (hc : c.PanOk) : c'.PanOk := by
  cases h with
  | rept count => exact hc.congr (by rw [c.repeatStep_frame count]) (by rw [c.repeatStep_frame count])
  | pan offset => exact (c.setPan_panOk offset).congr rfl rfl
  | _ => exact hc.congr rfl rfl

/-- Every action of the engine on a channel keeps I4. -/
theorem State.ChannelStep.panOk {s : State} {c c' : Channel} {p : Phase} (h : s.ChannelStep c c' p)
    (hc : c.PanOk) : c'.PanOk := by
  cases h with
  | prepare _ _ h => exact h.panOk hc
  | beat => exact hc.congr (by simp) (by simp)
  | skip => exact hc.congr rfl rfl
  | render => exact hc.congr (by simp [Channel.rendered]) (by simp [Channel.rendered])

/-! ### I5: the instrument -/

/-- An index is valid exactly when it is below NINSTR (R62). -/
theorem State.instrValid_iff {s : State} {i : BitVec 12} : s.instrValid i = true ↔ i.toNat < s.params.ninstr := by
  simp [State.instrValid]

/-- A command that starts no note keeps the instrument, or selects one of the table (R163). -/
theorem State.Prepares.instr {s : State} {c c' : Channel} (h : s.Prepares c c') :
    c'.instr = c.instr ∨ c'.instr.toNat < s.params.ninstr := by
  cases h with
  | seti i a b hi => exact .inr (State.instrValid_iff.1 hi)
  | rept count => rw [c.repeatStep_frame count]; exact .inl rfl
  | _ => exact .inl rfl

/-- Every action of the engine on a channel keeps its instrument, or selects one of the table. -/
theorem State.ChannelStep.instr {s : State} {c c' : Channel} {p : Phase} (h : s.ChannelStep c c' p) :
    c'.instr = c.instr ∨ c'.instr.toNat < s.params.ninstr := by
  cases h with
  | prepare _ _ h => exact h.instr
  | beat => exact .inl (by simp)
  | skip => exact .inl rfl
  | render => exact .inl (by simp [Channel.rendered])

/-- Every action of the engine on a channel keeps I5. -/
theorem State.ChannelStep.instrOk {s : State} {c c' : Channel} {p : Phase} (h : s.ChannelStep c c' p)
    (hc : c.InstrOk s.params.ninstr) : c'.InstrOk s.params.ninstr := by
  obtain e | hi := h.instr
  · unfold Channel.InstrOk; rwa [e]
  · exact .inr hi

/-! ### I6: the command cursor -/

/-- A cursor inside a store goes on by one to at most 4096. -/
theorem Channel.advance_pc_le {c : Channel} (h : c.pc.toNat < 4096) : (c.pc + 1#16).toNat ≤ 4097 := by
  rw [BitVec.toNat_add, BitVec.toNat_ofNat]; omega

/-- A command that starts no note, from inside a store, leaves the cursor at most 4097 (R161, R165, R166). -/
theorem State.Prepares.pcOk {s : State} {c c' : Channel} (h : s.Prepares c c') (hpc : c.pc.toNat < 4096) :
    c'.PcOk := by
  unfold Channel.PcOk
  cases h with
  | jump target =>
    have := target.isLt
    simp only [Channel.setPc_pc, targetWord, BitVec.toNat_setWidth]
    omega
  | rept count =>
    obtain ⟨-, e⟩ | ⟨-, e⟩ | ⟨-, -, e⟩ := c.repeatStep_cases count
    · rw [e]; exact Channel.advance_pc_le hpc
    · rw [e]
      simp only [BitVec.toNat_add, BitVec.toNat_ofNat]
      omega
    · rw [e]; exact Channel.advance_pc_le hpc
  | _ => exact Channel.advance_pc_le hpc

/-- Every action of the engine on a channel keeps I6, where every store is within R4. -/
theorem State.ChannelStep.pcOk {s : State} {c c' : Channel} {p : Phase} (h : s.ChannelStep c c' p)
    (hs : ∀ n ∈ s.params.codeLen, n ≤ 4096) (hc : c.PcOk) : c'.PcOk := by
  have inside : c.pc.toNat < s.codeLen s.cur → c.pc.toNat < 4096 :=
    fun h => Nat.lt_of_lt_of_le h (State.codeLen_le hs s.cur)
  cases h with
  | prepare _ hpc h => exact h.pcOk (inside hpc)
  | beat o count _ hpc =>
    unfold Channel.PcOk
    rw [Channel.advance_pc, Channel.startNote_pc]
    exact Channel.advance_pc_le (inside hpc)
  | skip => exact hc
  | render => unfold Channel.PcOk; simpa [Channel.rendered] using hc

/-- Settles O44, field by field: the store and the engine's place by what a step can do to them, I2, I4, I5 and I6 by what it
can do to one channel. -/
theorem stepKeepsSoundness : Obligations.StepKeepsSoundness := by
  intro s t hs h
  obtain ⟨hi, hc⟩ := step_keeps_inRange h hs.instruments hs.stores
  exact {
    memory := step_keeps_memory_wf h hs.memory
    instruments := hi
    stores := hc
    engine := step_keeps_place h hs.engine
    halted := step_keeps_halted h hs.halted
    cursor := step_keeps_forall_channels (fun _ => Channel.CursorOk) (fun _ => by decide)
      (fun _ _ _ _ _ ha => ha.cursorOk) h hs.cursor
    pan := step_keeps_forall_channels (fun _ => Channel.PanOk) (fun _ => by decide)
      (fun _ _ _ _ _ ha => ha.panOk) h hs.pan
    instr := step_keeps_forall_channels Channel.InstrOk (fun _ => .inl rfl)
      (fun _ _ _ _ _ ha => ha.instrOk) h hs.instr
    pc := step_keeps_forall_channels (fun _ => Channel.PcOk) (fun _ => by decide)
      (fun _ _ _ _ _ ha => ha.pcOk hs.stores) h hs.pc }

end Sys2Proof.Machine
end

section
/-! The bound on the amplitudes (10_state.md R34): what an envelope can still add goes down by what each step adds, and a
fresh note can add three whole steps in all. -/

namespace Sys2Proof.Machine

/-! ### One addition -/

/-- A sum within the bound is exact (R34). -/
theorem addAmplitude_toInt_of_le {amp delta : Long} (h : amp.toInt.natAbs + delta.toInt.natAbs ≤ ampLimit) :
    (addAmplitude amp delta).toInt = amp.toInt + delta.toInt := by
  unfold ampLimit at h
  apply toInt_addAmplitude
  simp only [fitsS32, Bool.and_eq_true, decide_eq_true_eq]
  omega

/-- An addition within the bound moves the amplitude by at most the delta's magnitude. -/
theorem addAmplitude_natAbs_le {amp delta : Long} (h : amp.toInt.natAbs + delta.toInt.natAbs ≤ ampLimit) :
    (addAmplitude amp delta).toInt.natAbs ≤ amp.toInt.natAbs + delta.toInt.natAbs := by
  rw [addAmplitude_toInt_of_le h]; omega

/-! ### What the active stage can still add -/

/-- What the deltas ahead can still add is what the active stage can add, and what those after it can. -/
theorem Channel.reach_of_stage {c : Channel} {k : Fin 4} (d : Vector Long 4) (hk : c.stage = some k) :
    c.reach d = (d.get k).toInt.natAbs * max 1 (c.efr.get k).toNat + (c.passStage k).reach d := by
  have hc := Channel.stage_eq_some.1 hk
  unfold Channel.reach Channel.stageReach
  rw [hc]
  fin_cases k <;> simp [Nat.add_assoc]

/-- The active stage can at least apply its delta once. -/
theorem Channel.delta_add_reach_passStage_le {c : Channel} {k : Fin 4} (d : Vector Long 4) (hk : c.stage = some k) :
    (d.get k).toInt.natAbs + (c.passStage k).reach d ≤ c.reach d := by
  rw [c.reach_of_stage d hk]
  have := Nat.le_mul_of_pos_right (d.get k).toInt.natAbs (show 0 < max 1 (c.efr.get k).toNat by omega)
  omega

/-- The count of a stage does not matter once it is passed. -/
theorem Channel.reach_passStage_countStage (c : Channel) (k : Fin 4) (d : Vector Long 4) :
    ((c.countStage k).passStage k).reach d = (c.passStage k).reach d := by
  unfold Channel.reach Channel.stageReach
  fin_cases k <;> simp [Vector.get_eq_getElem]

/-- A count that is not 0, taken down by one. -/
theorem toNat_count_sub_one {e : Long} (he : e ≠ 0#32) : (e - 1#32).toNat + 1 = e.toNat := by bv_omega

/-- A stage with a frame left after this one can add one delta less once this one is counted (R142). -/
theorem Channel.delta_add_reach_countStage {c : Channel} {k : Fin 4} (d : Vector Long 4) (hk : c.stage = some k)
    (he : c.efr.get k ≠ 0#32) (hl : c.efr.get k - 1#32 ≠ 0#32) :
    (d.get k).toInt.natAbs + (c.countStage k).reach d ≤ c.reach d := by
  have hk' : (c.countStage k).stage = some k := hk
  have hcount := toNat_count_sub_one he
  have hleft : 0 < (c.efr.get k - 1#32).toNat := 
    Nat.pos_of_ne_zero fun h => hl (BitVec.eq_of_toNat_eq h)
  have hmax : max 1 (c.efr.get k).toNat = max 1 (c.efr.get k - 1#32).toNat + 1 := by omega
  rw [c.reach_of_stage d hk, Channel.reach_of_stage d hk', c.reach_passStage_countStage, Channel.countStage_efr,
    get_set_same, hmax, Nat.mul_succ]
  omega

/-! ### The bound under the envelope's operations -/

/-- The bound is about the amplitudes and the envelope alone. -/
theorem Channel.AmpOk.congr {c c' : Channel} (h : c.AmpOk) (hs : c.EnvelopeSame c') : c'.AmpOk := by
  have hr : ∀ d, c'.reach d = c.reach d := fun d => by
    simp only [Channel.reach, Channel.stageReach, hs.efr, hs.ecur]
  unfold Channel.AmpOk
  rw [hs.ampL, hs.ampR, hs.edl, hs.edr, hr, hr]
  exact h

/-- Within the bound both lanes can take the deltas of the active stage. -/
theorem Channel.AmpOk.delta_le {c : Channel} {k : Fin 4} (h : c.AmpOk) (hk : c.stage = some k) :
    c.ampL.toInt.natAbs + (c.edl.get k).toInt.natAbs ≤ ampLimit ∧
      c.ampR.toInt.natAbs + (c.edr.get k).toInt.natAbs ≤ ampLimit := by
  have hl := c.delta_add_reach_passStage_le c.edl hk
  have hr := c.delta_add_reach_passStage_le c.edr hk
  obtain ⟨h1, h2⟩ := h
  omega

/-- Settles O48: the bound leaves room for the active stage's deltas, so both sums are exact. -/
theorem boundedAmplitudeAddsExactly : Obligations.BoundedAmplitudeAddsExactly := by
  intro c k h hk
  obtain ⟨hl, hr⟩ := h.delta_le hk
  exact ⟨addAmplitude_toInt_of_le hl, addAmplitude_toInt_of_le hr⟩

/-- A channel with the active stage's deltas applied keeps the bound, if what can still be added has gone down by them. -/
theorem Channel.AmpOk.of_applyDelta {c u : Channel} {k : Fin 4} (h : c.AmpOk) (hk : c.stage = some k)
    (hu : (c.applyDelta k).ampL = u.ampL ∧ (c.applyDelta k).ampR = u.ampR ∧ c.edl = u.edl ∧ c.edr = u.edr)
    (hr : ∀ d : Vector Long 4, (d.get k).toInt.natAbs + u.reach d ≤ c.reach d) : u.AmpOk := by
  obtain ⟨hl, hr'⟩ := h.delta_le hk
  have hl := addAmplitude_natAbs_le hl
  have hr' := addAmplitude_natAbs_le hr'
  obtain ⟨el, er, edl, edr⟩ := hu
  unfold Channel.AmpOk
  rw [← el, ← er, ← edl, ← edr, Channel.applyDelta_ampL, Channel.applyDelta_ampR]
  have := hr c.edl
  have := hr c.edr
  obtain ⟨h1, h2⟩ := h
  omega

/-- `SkipZeroStages` keeps the bound (R141). -/
theorem Channel.skipZeroStages_ampOk {c : Channel} (h : c.AmpOk) : c.skipZeroStages.AmpOk :=
  Channel.skipStages_induct 4 c h fun u _ hu hk _ =>
    hu.of_applyDelta hk (by simp) fun d => u.delta_add_reach_passStage_le d hk

/-- `EnvelopeTick` of a stage with a frame left keeps the bound (R142). -/
theorem Channel.envelopeTick_ampOk (c : Channel) {k : Fin 4} (h : c.AmpOk) (hk : c.stage = some k)
    (he : c.efr.get k ≠ 0#32) : (c.envelopeTick k).AmpOk := by
  obtain ⟨hl, e⟩ | ⟨-, e⟩ := c.envelopeTick_cases k
  · rw [e]
    exact h.of_applyDelta hk (by simp) fun d => c.delta_add_reach_countStage d hk he hl
  · have passed : (((c.applyDelta k).countStage k).passStage k).AmpOk :=
      h.of_applyDelta hk (by simp) fun d => by
        rw [Channel.reach_passStage_countStage]
        exact c.delta_add_reach_passStage_le d hk
    rw [e]
    exact Channel.skipZeroStages_ampOk passed

/-! ### A fresh note (R127, R128) -/

/-- One full-scale step at unity pan: 65535 * 256. -/
def fullStep : Nat := 16776960

/-- A count below 2^32 is the register's number. -/
theorem toNat_stageCountOf {count : Nat} (n : Nat) (h : count < 4294967296) :
    (stageCountOf n count).toNat = count := by
  rw [stageCountOf, if_pos h, BitVec.toNat_ofNat]; omega

/-- A stage moves a lane by at most its whole step in all its frames: the division truncates toward zero, a stage without
frames takes the step at once, and a count that no register holds leaves no delta (R128, assumption 13). -/
theorem stageDelta_mul_count_le (total : Int) (n m : Nat) (h : total.natAbs ≤ fullStep) :
    (toLong (stageDelta total n)).toInt.natAbs * max 1 (stageCountOf m n).toNat ≤ total.natAbs := by
  have hq : (stageDelta total n).natAbs * max 1 n ≤ total.natAbs := by
    unfold stageDelta divTrunc
    split
    · rename_i hn
      rw [Int.natAbs_tdiv, Int.natAbs_natCast, Nat.max_eq_right hn]
      exact Nat.div_mul_le_self _ _
    · rename_i hn
      rw [Nat.eq_zero_of_not_pos hn]; simp
  have hle : (stageDelta total n).natAbs ≤ total.natAbs :=
    (Nat.le_mul_of_pos_right _ (by omega)).trans hq
  have hfit : (toLong (stageDelta total n)).toInt = stageDelta total n := by
    unfold fullStep at h
    apply toInt_toLong
    simp only [fitsS32, Bool.and_eq_true, decide_eq_true_eq]
    omega
  rw [hfit]
  by_cases hn : n < 4294967296
  · rwa [toNat_stageCountOf m hn]
  · have hz : (stageDelta total n).natAbs = 0 := by
      by_contra hz
      have h1 := Nat.le_mul_of_pos_left (max 1 n) (Nat.pos_of_ne_zero hz)
      unfold fullStep at h
      omega
    rw [hz]; simp

/-- A stage whose gain changes by at most 65535, at a pan of at most 256, moves a lane by at most a full-scale step. -/
theorem stageDelta_mul_count_le_fullStep {g : Int} {pan : Nat} (n m : Nat) (hg : g.natAbs ≤ 65535)
    (hp : pan ≤ 256) :
    (toLong (stageDelta (g * pan) n)).toInt.natAbs * max 1 (stageCountOf m n).toNat ≤ fullStep := by
  have htotal : (g * pan).natAbs ≤ fullStep := by
    rw [Int.natAbs_mul, Int.natAbs_natCast]
    exact Nat.mul_le_mul hg hp
  exact (stageDelta_mul_count_le _ n m htotal).trans htotal

/-- The deltas of a fresh note can move a lane by three full-scale steps in all: rise, decay and release (R128). -/
theorem Channel.freshNote_reach_le (o : BeatOperands) (len n : Nat) (c : Channel) {pan : BitVec 9}
    (hp : pan.toNat ≤ 256) :
    (c.freshNote o len n).reach (laneDeltas (o.counts len) o.peak o.sus pan) ≤ ampLimit := by
  have hpeak := o.peak.isLt
  have hsus := o.sus.isLt
  have attack := stageDelta_mul_count_le_fullStep (g := o.peak.toNat) (o.counts len).attack (n + 1)
    (by omega) hp
  have decay := stageDelta_mul_count_le_fullStep (g := (o.sus.toNat : Int) - o.peak.toNat) (o.counts len).decay
    (n + 1 + 1) (by omega) hp
  have release := stageDelta_mul_count_le_fullStep (g := -(o.sus.toNat : Int)) (o.counts len).release
    (n + 1 + 3) (by omega) hp
  calc (c.freshNote o len n).reach (laneDeltas (o.counts len) o.peak o.sus pan)
      ≤ fullStep + fullStep + 0 + fullStep := ?_
    _ = ampLimit := rfl
  refine Nat.add_le_add (Nat.add_le_add (Nat.add_le_add ?_ ?_) ?_) ?_
  · simpa [Channel.stageReach, laneDeltas, stageRegs, Vector.get_eq_getElem] using attack
  · simpa [Channel.stageReach, laneDeltas, stageRegs, Vector.get_eq_getElem] using decay
  · simp [Channel.stageReach, laneDeltas, stageRegs, Vector.get_eq_getElem]
  · simpa [Channel.stageReach, laneDeltas, stageRegs, Vector.get_eq_getElem] using release

/-- A fresh note keeps the bound, where the pans do (R164, I4 of R46). -/
theorem Channel.startNote_ampOk (o : BeatOperands) (len n : Nat) (c : Channel) (hp : c.PanOk) :
    (c.startNote o len n).AmpOk := by
  obtain ⟨-, -, hl, hr, -⟩ := hp
  have fresh : (c.freshNote o len n).AmpOk :=
    ⟨by simpa using c.freshNote_reach_le o len n hl, by simpa using c.freshNote_reach_le o len n hr⟩
  exact (Channel.skipZeroStages_ampOk fresh).congr (c.startNote_envelopeSame o len n)

/-- Every action of the engine on a channel keeps the bound, where the pans are those of I4. -/
theorem State.ChannelStep.ampOk {s : State} {c c' : Channel} {p : Phase} (h : s.ChannelStep c c' p)
    (hp : c.PanOk) (hc : c.AmpOk) : c'.AmpOk := by
  cases h with
  | prepare _ _ h => exact hc.congr h.noteSame.toEnvelopeSame
  | beat o count => exact (c.startNote_ampOk o _ _ hp).congr (Channel.advance_noteSame _).toEnvelopeSame
  | skip => exact hc.congr c.countFrame_envelopeSame
  | render k ma _ _ hk he =>
    have advanced := hc.congr (c.advancePhases_envelopeSame s.params ma)
    exact (Channel.envelopeTick_ampOk _ advanced hk he).congr (Channel.countFrame_envelopeSame _)

/-- Settles O47: reset has the bound, and every action on a channel keeps it. -/
theorem stepKeepsAmplitudeBound : Obligations.StepKeepsAmplitudeBound := by
  intro s t hs ha h
  exact step_keeps_forall_channels (fun _ => Channel.AmpOk) (fun _ => by decide)
    (fun c _ _ _ hc hact => hact.ampOk (hs.pan c (State.chan_mem hc))) h ha

end Sys2Proof.Machine
end

section
/-! Reads of words that were never loaded (10_state.md R42, assumption 9): where a command's reads succeed all its words are
loaded, so one unloaded word stops the command, the fetch or the frame that reads it. -/

namespace Sys2Proof.Machine

/-! ### What successful reads say -/

/-- Where `NOTE` reads, its two words are loaded (R162). -/
theorem State.noteOperands_some {s : State} {i : BitVec 12} {o : NoteOperands} (h : s.noteOperands i = some o) :
    s.sampleRate ≠ none ∧ s.instrWord i 7 ≠ none := by
  unfold State.noteOperands at h
  split at h
  · rename_i hsr hw
    rw [hsr, hw]; exact ⟨nofun, nofun⟩
  · cases h

/-- Where `BEAT` reads, all its words are loaded, and are what it read (R164). -/
theorem State.beatOperands_some {s : State} {i : BitVec 12} {o : BeatOperands} (h : s.beatOperands i = some o) :
    s.BeatReads i o := by
  unfold State.beatOperands at h
  split at h
  · cases h
    constructor <;> assumption
  · cases h

/-- A word of which no byte is loaded is not loaded. -/
theorem Memory.readWord_of_unloaded {m : Memory} (h : ∀ a, m.read a = none) (a : Nat) : m.readWord a = none := by
  simp [Memory.readWord, h]

/-- Nor is a 32-bit word. -/
theorem Memory.readLong_of_unloaded {m : Memory} (h : ∀ a, m.read a = none) (a : Nat) : m.readLong a = none := by
  simp [Memory.readLong, Memory.readWord_of_unloaded h]

/-- A word that is not loaded lacks one of its bytes. -/
theorem Memory.readWord_eq_none {m : Memory} {a : Nat} (h : m.readWord a = none) :
    m.read a = none ∨ m.read (a + 1) = none := by
  unfold Memory.readWord at h
  split at h
  · cases h
  · rename_i hne
    by_contra! hboth
    obtain ⟨hlo, hhi⟩ := hboth
    obtain ⟨lo, hlo⟩ := Option.ne_none_iff_exists'.1 hlo
    obtain ⟨hi, hhi⟩ := Option.ne_none_iff_exists'.1 hhi
    exact hne lo hi hlo hhi

/-! ### Where the reader stops -/

/-- `NOTE` stops at a word that is not loaded (R162). -/
theorem execNote_unloaded {s : State} {c : Channel} {pitch : BitVec 8} (hc : s.chan = some c)
    (hp : pitch.toNat ≤ 107) (hi : c.instr.toNat < s.params.ninstr)
    (hu : s.sampleRate = none ∨ s.instrWord c.instr 7 = none) :
    exec (.note pitch) s = .fault .unloadedTuneWord := by
  have hnone : s.noteOperands c.instr = none := by
    by_contra hne
    obtain ⟨o, ho⟩ := Option.ne_none_iff_exists'.1 hne
    obtain ⟨hsr, hw⟩ := State.noteOperands_some ho
    exact hu.elim hsr hw
  have hlow : ¬ maxPitch < pitchValue pitch := Nat.not_lt.2 hp
  change s.onChan _ = _
  rw [State.onChan_of_chan hc, if_neg hlow, if_pos (State.instrValid_iff.2 hi), hnone]
  rfl

/-- `SETI` stops where the record's first word is not loaded (R163). -/
theorem execSeti_unloaded {s : State} {c : Channel} {index : BitVec 12} (hc : s.chan = some c)
    (hi : index.toNat < s.params.ninstr) (hu : s.instrWord index 0 = none) :
    exec (.seti index) s = .fault .unloadedTuneWord := by
  have hnone : s.waveWordOf index = none := hu
  change s.onChan _ = _
  rw [State.onChan_of_chan hc, if_pos (State.instrValid_iff.2 hi), hnone]
  rfl

/-- `BEAT` stops at a word that is not loaded (R164). -/
theorem execBeat_unloaded {s : State} {c : Channel} {count : BitVec 12} (hc : s.chan = some c)
    (hi : c.instr.toNat < s.params.ninstr)
    (hu : s.sampleRate = none ∨ s.beatLen = none ∨ ∃ j ∈ [1, 2, 3, 4, 5, 8], s.instrWord c.instr j = none) :
    exec (.beat count) s = .fault .unloadedTuneWord := by
  have hnone : s.beatOperands c.instr = none := by
    by_contra hne
    obtain ⟨o, ho⟩ := Option.ne_none_iff_exists'.1 hne
    obtain ⟨hsr, hbl, h1, h2, h3, h4, h5, h8⟩ := State.beatOperands_some ho
    have loaded : ∀ j ∈ [1, 2, 3, 4, 5, 8], s.instrWord c.instr j ≠ none := by
      simp [h1, h2, h3, h4, h5, h8]
    obtain hu | hu | ⟨j, hj, hu⟩ := hu
    · cases hsr.symm.trans hu
    · cases hbl.symm.trans hu
    · exact loaded j hj hu
  change s.onChan _ = _
  rw [State.onChan_of_chan hc, if_pos (State.instrValid_iff.2 hi), hnone]
  rfl

/-- A fetch inside the store finds nothing where the command word is not loaded (R160). -/
theorem State.fetch_unloaded {s : State} {pc : Word} (hpc : pc.toNat < s.codeLen s.cur)
    (hu : s.codeWord s.cur pc = none) : s.fetch pc = .unloaded := by
  rw [State.fetch, if_neg (Nat.not_le.2 hpc)]
  obtain h | h := Memory.readWord_eq_none hu
  · rw [h]
  · rw [h]; split <;> simp_all

/-- A fetching step stops at a command word that is not loaded. -/
theorem step_fetch_unloaded {s : State} {c : Channel} (hx : s.Executing c) (hpc : c.pc.toNat < s.codeLen s.cur)
    (hu : s.codeWord s.cur c.pc = none) : step s = .fault .unloadedTuneWord := by
  obtain ⟨hl, hr, ⟨e, hp⟩, hc⟩ := hx
  have hb : s.busy = true := (State.busy_iff s).2 ⟨hr, by simp [hp]⟩
  rw [step_of_clear hl, if_pos hb, hp]
  change s.onChan _ = _
  rw [State.onChan_of_chan hc, State.fetch_unloaded hpc hu]

/-- A rendered frame stops where `MODAMP` is not loaded (R143). -/
theorem step_frame_unloaded {s : State} {c : Channel} {k : Fin 4} (hx : s.AtHead c) (hg : 1 ≤ c.nfl.toInt)
    (hs : c.cstep ≠ 0#16) (hk : c.stage = some k) (he : c.efr.get k ≠ 0#32)
    (hi : c.instr.toNat < s.params.ninstr) (hu : s.instrWord c.instr 6 = none) :
    step s = .fault .unloadedTuneWord := by
  obtain ⟨hl, hr, hp, hc⟩ := hx
  have hb : s.busy = true := (State.busy_iff s).2 ⟨hr, by simp [hp]⟩
  have hrender : s.renderOrSkip c = .error .unloadedTuneWord := by
    have hne : c.stageEmpty k = false := by simpa [Channel.stageEmpty] using he
    have hma : s.modamp c.instr = none := hu
    simp [State.renderOrSkip, State.wavegenFrame, Channel.silent, hs, hk, hne, State.instrValid_iff.2 hi, hma]
  rw [step_of_clear hl, if_pos hb, hp]
  change s.onChan _ = _
  rw [State.onChan_of_chan hc, if_pos (Channel.generating_iff.2 hg), hrender]

/-- Settles O54, reader by reader. -/
theorem unloadedWordStops : Obligations.UnloadedWordStops := fun _ _ hc =>
  ⟨fun _ hp hi hu => execNote_unloaded hc hp hi hu, fun _ hi hu => execSeti_unloaded hc hi hu,
    fun _ hi hu => execBeat_unloaded hc hi hu, fun hx hpc hu => step_fetch_unloaded hx hpc hu,
    fun _ hx hg hs hk he hi hu => step_frame_unloaded hx hg hs hk he hi hu⟩

/-! ### Power-on -/

/-- Every channel at power-on is a channel at reset. -/
theorem State.powerOn_mem_ch {p : Params} {n : Nat} {c : Channel} (h : c ∈ (State.powerOn p n).ch) :
    c = Channel.reset := List.eq_of_mem_replicate h

/-- Settles O9: the registers are those of `Channel.reset`, and a store without a byte has no word to read. -/
theorem powerOnValues : Obligations.PowerOnValues := by
  refine ⟨fun p n => ⟨List.length_replicate, fun c hc => ?_, rfl, rfl, rfl, rfl, rfl, fun _ => rfl⟩,
    fun s c hm hc => ?_⟩
  · rw [State.powerOn_mem_ch hc]; decide
  · have hw : ∀ i j, s.instrWord i j = none := fun _ _ => Memory.readWord_of_unloaded hm _
    have hsr : s.sampleRate = none := Memory.readLong_of_unloaded hm _
    exact ⟨fun _ hp hi => execNote_unloaded hc hp hi (.inl hsr), fun _ hi => execSeti_unloaded hc hi (hw _ _),
      fun _ hi => execBeat_unloaded hc hi (.inl hsr)⟩

end Sys2Proof.Machine
end

section
/-! Frame counts: I1 and I3 of 10_state.md R46. A frame takes one from the envelope and one from the note; an empty stage has
nothing to take; a fresh note's stages share out its length (41_instrument.md R127). -/

namespace Sys2Proof.Machine

/-! ### The frames ahead -/

/-- The frames ahead are those of the active stage, and those of the stages after it. -/
theorem Channel.framesAhead_of_stage {c : Channel} {k : Fin 4} (hk : c.stage = some k) :
    c.framesAhead = (c.efr.get k).toNat + (c.passStage k).framesAhead := by
  have hc := Channel.stage_eq_some.1 hk
  unfold Channel.framesAhead Channel.stageFrames
  rw [hc]
  fin_cases k <;> simp [Nat.add_assoc]

/-- The count of a stage does not matter once it is passed. -/
theorem Channel.framesAhead_passStage_countStage (c : Channel) (k : Fin 4) :
    ((c.countStage k).passStage k).framesAhead = (c.passStage k).framesAhead := by
  unfold Channel.framesAhead Channel.stageFrames
  fin_cases k <;> simp [Vector.get_eq_getElem]

/-- The frames ahead are those of the envelope alone. -/
theorem Channel.framesAhead_congr {c c' : Channel} (hs : c.EnvelopeSame c') : c'.framesAhead = c.framesAhead := by
  simp only [Channel.framesAhead, Channel.stageFrames, hs.efr, hs.ecur]

/-- `SkipZeroStages` passes no frame (R141). -/
theorem Channel.skipZeroStages_framesAhead (c : Channel) : c.skipZeroStages.framesAhead = c.framesAhead := by
  refine Channel.skipStages_induct (P := fun u => u.framesAhead = c.framesAhead) 4 c rfl fun u k hu hk he => ?_
  have hsplit := Channel.framesAhead_of_stage hk
  rw [he, BitVec.toNat_ofNat] at hsplit
  have hsame : ((u.applyDelta k).passStage k).framesAhead = (u.passStage k).framesAhead := rfl
  omega

/-- `EnvelopeTick` of a stage with a frame left takes one frame (R142). -/
theorem Channel.envelopeTick_framesAhead {c : Channel} {k : Fin 4} (hk : c.stage = some k)
    (he : c.efr.get k ≠ 0#32) : (c.envelopeTick k).framesAhead + 1 = c.framesAhead := by
  have hcount := toNat_count_sub_one he
  have hsplit := Channel.framesAhead_of_stage hk
  have hpass : (((c.applyDelta k).countStage k).passStage k).framesAhead = (c.passStage k).framesAhead :=
    c.framesAhead_passStage_countStage k
  obtain ⟨-, e⟩ | ⟨hz, e⟩ := c.envelopeTick_cases k
  · have hsplit' := Channel.framesAhead_of_stage (c := (c.applyDelta k).countStage k) hk
    rw [Channel.countStage_efr, get_set_same, Channel.applyDelta_efr] at hsplit'
    rw [e]
    omega
  · rw [hz, BitVec.toNat_ofNat] at hcount
    rw [e, Channel.skipZeroStages_framesAhead]
    omega

/-! ### A fresh note -/

/-- The stages of a note share out its length (R127). -/
theorem stageCounts_sum (sr : Nat) (att dec rel : Word) (len : Nat) :
    (stageCounts sr att dec rel len).attack + (stageCounts sr att dec rel len).decay
      + (stageCounts sr att dec rel len).sustain + (stageCounts sr att dec rel len).release = len := by
  simp only [stageCounts]
  omega

/-- A length below 2^31 is the number `NFL` holds (R28). -/
theorem toInt_nflOf {len : Nat} (n : Nat) (h : len < 2147483648) : (nflOf n len).toInt = len := by
  have hn : (BitVec.ofNat 32 len).toNat = len := by rw [BitVec.toNat_ofNat]; omega
  rw [nflOf, if_pos h, BitVec.toInt_eq_toNat_of_lt (by omega), hn]

/-- A fresh note of fewer than 2^31 frames has as many frames ahead. -/
theorem Channel.freshNote_framesAhead (o : BeatOperands) {len : Nat} (n : Nat) (c : Channel)
    (h : len < 2147483648) : (c.freshNote o len n).framesAhead = len := by
  have hsum : (o.counts len).attack + (o.counts len).decay + (o.counts len).sustain + (o.counts len).release = len :=
    stageCounts_sum _ _ _ _ _
  have ha := toNat_stageCountOf (count := (o.counts len).attack) (n + 1) (by omega)
  have hd := toNat_stageCountOf (count := (o.counts len).decay) (n + 1 + 1) (by omega)
  have hs := toNat_stageCountOf (count := (o.counts len).sustain) (n + 1 + 2) (by omega)
  have hr := toNat_stageCountOf (count := (o.counts len).release) (n + 1 + 3) (by omega)
  calc (c.freshNote o len n).framesAhead
      = (o.counts len).attack + (o.counts len).decay + (o.counts len).sustain + (o.counts len).release := by
        simp [Channel.framesAhead, Channel.stageFrames, stageRegs, Vector.get_eq_getElem, ha, hd, hs, hr]
    _ = len := hsum

/-- So has the note that `BEAT` starts (R164). -/
theorem Channel.startNote_framesAhead (o : BeatOperands) {len : Nat} (n : Nat) (c : Channel)
    (h : len < 2147483648) : (c.startNote o len n).framesAhead = len := by
  rw [Channel.framesAhead_congr (c.startNote_envelopeSame o len n), Channel.skipZeroStages_framesAhead,
    Channel.freshNote_framesAhead o n c h]

/-- Where every beat fits, so does every note (W8). -/
theorem State.BeatsFit.noteFrames_lt {s : State} (h : s.BeatsFit) {i : BitVec 12} {o : BeatOperands}
    (ho : s.beatOperands i = some o) (count : BitVec 12) : o.noteFrames count < 2147483648 := by
  have hfit := h _ (State.beatOperands_some ho).beatLen
  have hcount : argValue count ≤ 4095 := Nat.le_of_lt_succ count.isLt
  exact (Nat.mul_le_mul_left o.beatLen.toNat hcount).trans_lt hfit

/-! ### I1, I3 and the instrument of a note, under each action on a channel -/

/-- I1 and I3 of R46 for one channel, and that the instrument of its note is in the table. -/
structure Channel.Counted (ninstr : Nat) (c : Channel) : Prop where
  nonneg : 0 ≤ c.nfl.toInt
  counted : 1 ≤ c.nfl.toInt → c.cstep ≠ 0#16 → (c.framesAhead : Int) = c.nfl.toInt
  tabled : 1 ≤ c.nfl.toInt → c.instr.toNat < ninstr

/-- The notes are counted channel by channel, but for where commands execute. -/
theorem State.NotesSound.counted_mem {s : State} (h : s.NotesSound) :
    ∀ c ∈ s.ch, c.Counted s.params.ninstr :=
  fun c hc => ⟨h.nonneg c hc, h.counted c hc, h.tabled c hc⟩

/-- A channel whose note is over is counted. -/
theorem Channel.counted_of_nfl_zero {c : Channel} (ninstr : Nat) (h : c.nfl.toInt = 0) : c.Counted ninstr :=
  ⟨by omega, fun h1 => by omega, fun h1 => by omega⟩

/-- A note of fewer than 2^31 frames is counted when it starts (R164). -/
theorem Channel.startNote_counted (o : BeatOperands) {len ninstr : Nat} (n : Nat) (c : Channel)
    (h : len < 2147483648) (hi : c.instr.toNat < ninstr) : (c.startNote o len n).Counted ninstr where
  nonneg := by rw [Channel.startNote_nfl, toInt_nflOf n h]; omega
  counted := fun _ _ => by rw [Channel.startNote_nfl, toInt_nflOf n h, c.startNote_framesAhead o n h]
  tabled := fun _ => by rwa [Channel.startNote_instr]

/-- Going on to the next command keeps a channel counted. -/
theorem Channel.Counted.advance {c : Channel} {ninstr : Nat} (h : c.Counted ninstr) : c.advance.Counted ninstr :=
  ⟨h.nonneg, h.counted, h.tabled⟩

/-- A silent channel's frame takes one from its note, which has no envelope to count (R188). -/
theorem Channel.countFrame_counted (c : Channel) {ninstr : Nat} (h : c.Counted ninstr) (hg : 1 ≤ c.nfl.toInt)
    (hs : c.cstep = 0#16) : c.countFrame.Counted ninstr where
  nonneg := by rw [Channel.countFrame_nfl_toInt hg]; omega
  counted := fun _ hne => absurd hs hne
  tabled := fun _ => h.tabled hg

/-- A rendered frame takes one from the note and one from the envelope (R148, R181). -/
theorem Channel.rendered_counted (c : Channel) {ninstr : Nat} (p : Params) (ma : Word) {k : Fin 4}
    (h : c.Counted ninstr) (hg : 1 ≤ c.nfl.toInt) (hs : c.cstep ≠ 0#16) (hk : c.stage = some k)
    (he : c.efr.get k ≠ 0#32) : (c.rendered p ma k).countFrame.Counted ninstr := by
  have hnfl : (c.rendered p ma k).nfl = c.nfl := by simp [Channel.rendered]
  have hdown : (c.rendered p ma k).countFrame.nfl.toInt = c.nfl.toInt - 1 := by
    rw [Channel.countFrame_nfl_toInt (by rwa [hnfl]), hnfl]
  have htick := Channel.envelopeTick_framesAhead (c := c.advancePhases p ma) hk he
  rw [Channel.framesAhead_congr (c.advancePhases_envelopeSame p ma)] at htick
  have hsame : (c.rendered p ma k).countFrame.framesAhead = (Channel.envelopeTick _ k).framesAhead :=
    Channel.framesAhead_congr (Channel.countFrame_envelopeSame _)
  have hcount := h.counted hg hs
  refine ⟨by omega, fun _ _ => by omega, fun _ => ?_⟩
  have hinstr : (c.rendered p ma k).countFrame.instr = c.instr := by simp [Channel.rendered]
  rw [hinstr]
  exact h.tabled hg

/-- Every action of the engine on a channel keeps it counted, where every note fits and commands execute only when the
note is over. -/
theorem State.ChannelStep.counted {s : State} {c c' : Channel} {p : Phase} (h : s.ChannelStep c c' p)
    (hfit : s.BeatsFit) (hover : ∀ e, s.phase = .execute e → c.nfl.toInt ≤ 0) (hc : c.Counted s.params.ninstr) :
    c'.Counted s.params.ninstr := by
  cases h with
  | prepare hx _ h =>
    obtain ⟨e, hx⟩ := hx
    apply Channel.counted_of_nfl_zero
    rw [h.noteSame.nfl]
    exact le_antisymm (hover e hx) hc.nonneg
  | beat o count _ _ hv ho =>
    exact (c.startNote_counted o s.fresh (hfit.noteFrames_lt ho count) (State.instrValid_iff.1 hv)).advance
  | skip hg hs => exact c.countFrame_counted hc (Channel.generating_iff.1 hg) (Channel.silent_iff.1 hs)
  | render k ma hg hs hk he =>
    exact c.rendered_counted _ ma hc (Channel.generating_iff.1 hg) (by simpa [Channel.silent] using hs) hk he

/-! ### Commands execute only when the note is over (R28) -/

/-- After an action on a channel the engine is in an execute phase only if the channel's note is over. -/
theorem State.ChannelStep.over {s : State} {c c' : Channel} {p : Phase} (h : s.ChannelStep c c' p)
    (hover : ∀ e, s.phase = .execute e → c.nfl.toInt ≤ 0) : ∀ e, p = .execute e → c'.nfl.toInt ≤ 0 := by
  have frame : ∀ u e, afterFrame u = .execute e → u.nfl.toInt ≤ 0 := fun u e hp => by
    unfold afterFrame at hp
    split at hp
    · assumption
    · cases hp
  cases h with
  | prepare _ _ h => rw [h.noteSame.nfl]; exact hover
  | beat o count hx =>
    intro e hp
    obtain ⟨eager, hx⟩ := hx
    rw [hx] at hp
    cases eager <;> cases hp
  | skip => exact frame _
  | render => exact frame _

/-- Every step leaves the engine in an execute phase only of a channel whose note is over. -/
theorem step_keeps_between {s t : State} (h : step s = .next t)
    (hs : ∀ e c, s.busy = true → s.phase = .execute e → s.chan = some c → c.nfl.toInt ≤ 0) :
    ∀ e c, t.busy = true → t.phase = .execute e → t.chan = some c → c.nfl.toInt ≤ 0 := by
  intro e u hb' hp hu
  obtain rfl | rfl | ⟨hb, rfl⟩ | ⟨hb, h⟩ := step_cases h
  · cases hp
  · exact hs e u hb' hp hu
  · rw [(State.hostTurn_place hb hb').1] at hp; cases hp
  · cases h with
    | enter hc hg =>
      rw [Option.some.inj (hu.symm.trans hc)]
      have hdone := mt Channel.generating_iff.2 (Bool.eq_false_iff.1 hg)
      omega
    | act o n hc ha =>
      obtain rfl := Option.some.inj ((State.chan_setChan hc _).symm.trans hu)
      exact ha.over (fun e hx => hs e _ hb hx hc) e hp
    | fault cause pc0 => rw [State.raise_phase] at hp; cases hp
    | next =>
      obtain ⟨hh, -⟩ | hi := s.nextChannel_place
      · rw [hh] at hp; cases hp
      · rw [hi] at hp; cases hp

/-- Settles O45: every action on a channel keeps it counted, and the engine executes commands only past a note. -/
theorem stepKeepsFrameCounts : Obligations.StepKeepsFrameCounts := by
  intro s t _ hn hfit h
  have hcounted := step_keeps_forall_channels Channel.Counted
    (fun _ => Channel.counted_of_nfl_zero _ (by decide))
    (fun c _ _ hb hc ha => ha.counted hfit fun e hx => hn.between e c hb hx hc) h hn.counted_mem
  exact {
    nonneg := fun c hc => (hcounted c hc).nonneg
    counted := fun c hc => (hcounted c hc).counted
    tabled := fun c hc => (hcounted c hc).tabled
    between := step_keeps_between h hn.between }

end Sys2Proof.Machine
end

section
/-! The invariants at power-on (10_state.md R42, R46): each is a fact about a channel at reset. -/

namespace Sys2Proof.Machine

/-- What holds of a channel at reset holds of every channel at power-on. -/
theorem State.powerOn_forall_ch {P : Channel → Prop} (p : Params) (n : Nat) (h : P Channel.reset) :
    ∀ c ∈ (State.powerOn p n).ch, P c := fun _ hc => State.powerOn_mem_ch hc ▸ h

/-- The block at power-on is sound, for all parameters within R4. -/
theorem State.powerOn_sound {p : Params} (n : Nat) (hi : p.ninstr ≤ 4096) (hc : ∀ m ∈ p.codeLen, m ≤ 4096) :
    (State.powerOn p n).Sound where
  memory := State.powerOn_wf p n
  instruments := hi
  stores := hc
  engine := nofun
  halted := fun _ _ hu => State.powerOn_mem_ch hu
  cursor := State.powerOn_forall_ch p n (by decide)
  pan := State.powerOn_forall_ch p n (by decide)
  instr := State.powerOn_forall_ch p n (.inl rfl)
  pc := State.powerOn_forall_ch p n (by decide)

/-- At power-on no channel has a note, so the notes are counted. -/
theorem State.powerOn_notesSound (p : Params) (n : Nat) : (State.powerOn p n).NotesSound :=
  have counted : ∀ c ∈ (State.powerOn p n).ch, c.Counted p.ninstr :=
    State.powerOn_forall_ch p n (Channel.counted_of_nfl_zero _ (by decide))
  { nonneg := fun c hc => (counted c hc).nonneg
    counted := fun c hc => (counted c hc).counted
    tabled := fun c hc => (counted c hc).tabled
    between := fun _ _ hb => absurd hb (Bool.eq_false_iff.1 (State.busy_of_halted rfl)) }

/-- At power-on every amplitude is within its bound. -/
theorem State.powerOn_ampSound (p : Params) (n : Nat) : (State.powerOn p n).AmpSound :=
  State.powerOn_forall_ch p n (by decide)

/-- Settles O49: `State.reset` is the block at power-on with parameters within R4. -/
theorem powerOnIsSound : Obligations.PowerOnIsSound :=
  ⟨fun p n hi hc => ⟨State.powerOn_sound n hi hc, State.powerOn_notesSound p n, State.powerOn_ampSound p n⟩,
    State.powerOn_sound 1 (by decide) (by decide), State.powerOn_notesSound _ 1, State.powerOn_ampSound _ 1⟩

end Sys2Proof.Machine
end

section
/-! The host's writes to the tune store (20_memory.md R61, R74): one word at its place while HALTED, and no write at any other
time. -/

namespace Sys2Proof.Machine

/-- Settles O42: only a `LOAD` while HALTED writes the store or the parameters. -/
theorem tuneStoreLockedWhileRunning : Obligations.TuneStoreLockedWhileRunning := by
  intro s t hr h
  obtain hkept | ⟨port, item, hhalted, -⟩ := step_store h
  · exact hkept
  · exact absurd hhalted hr

/-- A byte outside a written word stays. -/
theorem Memory.read_writeWord_other (m : Memory) {a x : Nat} (w : Word) (h : x ≠ a) (h1 : x ≠ a + 1) :
    (m.writeWord a w).read x = m.read x := by
  rw [Memory.writeWord, Memory.read_write_other _ _ h1, Memory.read_write_other _ _ h]

/-- Between frames, with neither line set, the step is the host's turn (R180). -/
theorem step_of_not_busy {s : State} (hl : s.LinesClear) (hb : s.busy = false) : step s = .next s.hostTurn := by
  rw [step_of_clear hl, hb]
  rfl

/-- The host's turn with a `LOAD` at the port: done while HALTED, refused otherwise (R74, R186). -/
theorem State.hostTurn_load {s : State} {item : LoadItem} {rest : List HostMove} (h : s.port = .load item :: rest) :
    s.hostTurn = if s.run = .halted then State.load { s with port := rest } item else { s with port := rest } := by
  rw [State.hostTurn, h]
  rfl

/-- A `LOAD` of a word that exists writes it at its place (R74). -/
theorem State.load_word {s : State} {a : TuneWord} (w : Word) (h : s.tuneWordExists a = true) :
    s.load (.word a w) = { s with mem := s.mem.writeWord (tuneAddr a) w } := if_pos h

/-- Settles O50: the `LOAD` is the host's turn, and the laws of a written word say what memory holds after it. -/
theorem hostWritesOnlyWhileHalted : Obligations.HostWritesOnlyWhileHalted := by
  intro s rest a w hl hb hp
  rw [step_of_not_busy hl hb, State.hostTurn_load hp]
  constructor
  · intro hr he
    have hload := State.load_word (s := { s with port := rest }) w he
    rw [if_pos hr, hload]
    exact ⟨_, rfl, Memory.readWord_writeWord_same _ _ _, fun _ => Memory.read_writeWord_other _ w, rfl⟩
  · intro hr
    rw [if_neg hr]

end Sys2Proof.Machine
end

section
/-! The instrument record (20_memory.md R63): its two packed words and the fields read from them, as numbers. -/

namespace Sys2Proof.Machine

/-! ### The two packed words and their fields, as numbers -/

/-- Bits put above others, as a number. -/
theorem toNat_append_eq_add {n m : Nat} (a : BitVec n) (b : BitVec m) :
    (a ++ b).toNat = 2 ^ m * a.toNat + b.toNat := by
  rw [BitVec.toNat_append, ← Nat.shiftLeft_add_eq_or_of_lt b.isLt, Nat.shiftLeft_eq, Nat.mul_comm]

@[simp] theorem toNat_waveWord (carwave modwave : BitVec 3) :
    (waveWord carwave modwave).toNat = carwave.toNat + 16 * modwave.toNat := by
  simp only [waveWord, toNat_append_eq_add, BitVec.toNat_ofNat]
  omega

@[simp] theorem toNat_ratioWord (num den : BitVec 8) :
    (ratioWord num den).toNat = 256 * num.toNat + den.toNat := toNat_append_eq_add num den

@[simp] theorem toNat_carwaveField (w : Word) : (carwaveField w).toNat = w.toNat % 8 := by
  simp [carwaveField, BitVec.extractLsb'_toNat]

@[simp] theorem toNat_modwaveField (w : Word) : (modwaveField w).toNat = w.toNat / 16 % 8 := by
  simp [modwaveField, BitVec.extractLsb'_toNat, Nat.shiftRight_eq_div_pow]

@[simp] theorem toNat_numField (w : Word) : (numField w).toNat = w.toNat / 256 := by
  have hw := w.isLt
  simp only [numField, BitVec.extractLsb'_toNat, Nat.shiftRight_eq_div_pow]
  omega

@[simp] theorem toNat_denField (w : Word) : (denField w).toNat = w.toNat % 256 := by
  simp [denField, BitVec.extractLsb'_toNat]

/-! ### A record packed is unpacked again -/

@[simp] theorem carwaveField_waveWord (carwave modwave : BitVec 3) :
    carwaveField (waveWord carwave modwave) = carwave := by
  apply BitVec.eq_of_toNat_eq
  have hc := carwave.isLt
  rw [toNat_carwaveField, toNat_waveWord]
  omega

@[simp] theorem modwaveField_waveWord (carwave modwave : BitVec 3) :
    modwaveField (waveWord carwave modwave) = modwave := by
  apply BitVec.eq_of_toNat_eq
  have hc := carwave.isLt
  have hm := modwave.isLt
  rw [toNat_modwaveField, toNat_waveWord]
  omega

@[simp] theorem numField_ratioWord (num den : BitVec 8) : numField (ratioWord num den) = num := by
  apply BitVec.eq_of_toNat_eq
  have hd := den.isLt
  rw [toNat_numField, toNat_ratioWord]
  omega

@[simp] theorem denField_ratioWord (num den : BitVec 8) : denField (ratioWord num den) = den := by
  apply BitVec.eq_of_toNat_eq
  have hd := den.isLt
  rw [toNat_denField, toNat_ratioWord]
  omega

theorem unpackInstrument_packInstrument (ins : Instrument) : unpackInstrument (packInstrument ins) = some ins := by
  simp [packInstrument, unpackInstrument]

/-! ### `SETI` and the reserved waveform codes -/

/-- The codes 5 to 7 are no waveform (R91). -/
theorem waveformOfCode_eq_none {code : BitVec 3} (h : 4 < code.toNat) : waveformOfCode code = none := by
  revert code
  decide

/-- `SelectWavegen` has no pair where one code is reserved (R121). -/
theorem selectWavegen_eq_none {carwave modwave : BitVec 3} (h : 4 < carwave.toNat ∨ 4 < modwave.toNat) :
    selectWavegen carwave modwave = none := by
  unfold selectWavegen
  obtain h | h := h
  · rw [waveformOfCode_eq_none h]
  · rw [waveformOfCode_eq_none h]
    cases waveformOfCode carwave <;> rfl

/-- `SETI` faults where word 0 of the record has a reserved waveform code (R163, R207). -/
theorem execSeti_reserved {s : State} {c : Channel} {index : BitVec 12} {w : Word} (hc : s.chan = some c)
    (hr : s.run = .running) (hi : index.toNat < s.params.ninstr) (hw : s.instrWord index 0 = some w)
    (h : 4 < w.toNat % 8 ∨ 4 < w.toNat / 16 % 8) :
    exec (.seti index) s = .next (s.faultedBy .reservedWaveform c.pc) := by
  have hread : s.waveWordOf index = some w := hw
  have hnone : selectWavegen (carwaveField w) (modwaveField w) = none := selectWavegen_eq_none (by simpa using h)
  change s.onChan _ = _
  rw [State.onChan_of_chan hc, if_pos (State.instrValid_iff.2 hi), hread, ← State.raise_running hr]
  simp only [reading, hnone]

/-- Settles O51: the packed words and the fields as numbers, and `SETI` at a reserved code. -/
theorem recordPacksAndUnpacks : Obligations.RecordPacksAndUnpacks := by
  refine ⟨fun ins => ?_, fun w0 _ _ _ _ _ _ w7 _ => ?_, fun _ _ _ _ hc hr hi hw h => execSeti_reserved hc hr hi hw h⟩
  · exact ⟨_, _, rfl, toNat_waveWord _ _, toNat_ratioWord _ _, unpackInstrument_packInstrument ins⟩
  · exact ⟨_, rfl, toNat_carwaveField w0, toNat_modwaveField w0, rfl, rfl, rfl, rfl, rfl, rfl, toNat_numField w7,
      toNat_denField w7, rfl⟩

end Sys2Proof.Machine
end

section
/-! A tune read back (20_memory.md R63 to R65): the configuration, the records and the command stores lie apart, so each word
of the parts stored is the word read. A loaded image and a launched tune both store those parts. -/

namespace Sys2Proof.Machine

/-! ### The command stores -/

/-- Word `k` of a store lies `k` words above its first. -/
theorem codeAddr_eq (c k : Nat) : codeAddr c k = codeAddr c 0 + 2 * k := rfl

/-- A store within R4 ends where the next one begins. -/
theorem codeAddr_succ (c : Nat) : codeAddr (c + 1) 0 = codeAddr c 0 + 2 * 4096 := by
  simp only [codeAddr, Config.codeStride]
  omega

/-- A word below the stores written stays. -/
theorem readWord_writeStores_below (m : Memory) (stores : List (List Word)) {c x : Nat} (h : x + 1 < codeAddr c 0) :
    (writeStores m c stores).readWord x = m.readWord x := by
  induction stores generalizing m c with
  | nil => rfl
  | cons ws rest ih =>
    have hnext := codeAddr_succ c
    rw [writeStores, ih _ (by omega), Memory.readWord_writeWords_other _ _ (.inl h)]

/-- Each word of stores within R4 is read back. -/
theorem readWord_writeStores_same (m : Memory) {stores : List (List Word)} {code : List Word} {c i k : Nat}
    (hs : ∀ ws ∈ stores, ws.length ≤ 4096) (hi : stores[i]? = some code) (hk : k < code.length) :
    (writeStores m c stores).readWord (codeAddr (c + i) k) = code[k]? := by
  induction stores generalizing m c i with
  | nil => simp at hi
  | cons ws rest ih =>
    obtain ⟨hlen, hrest⟩ := List.forall_mem_cons.1 hs
    rw [writeStores]
    cases i with
    | zero =>
      cases hi
      have hnext := codeAddr_succ c
      rw [Nat.add_zero c, codeAddr_eq c k, readWord_writeStores_below _ _ (by omega),
        Memory.readWord_writeWords_same _ _ hk]
    | succ i =>
      have hplace : c + (i + 1) = c + 1 + i := by omega
      rw [hplace]
      exact ih _ hrest hi

/-! ### The records -/

/-- Word `j` of record `i` lies `9 i + j` words above the first. -/
theorem instrAddr_eq (i j : Nat) : instrAddr i j = instrAddr 0 0 + 2 * (9 * i + j) := by
  simp only [instrAddr]
  omega

/-- Word `j` of record `i` is word `9 i + j` of the records' words (R63). -/
theorem getElem?_flatten_records {l : List Instrument} {ins : Instrument} {i j : Nat} (hi : l[i]? = some ins)
    (hj : j < 9) : (l.map packInstrument).flatten[9 * i + j]? = (packInstrument ins)[j]? := by
  induction l generalizing i with
  | nil => simp at hi
  | cons x rest ih =>
    have hlen : (packInstrument x).length = 9 := rfl
    rw [List.map_cons, List.flatten_cons]
    cases i with
    | zero =>
      cases hi
      rw [Nat.mul_zero, Nat.zero_add, List.getElem?_append_left (by omega)]
    | succ i =>
      have hidx : 9 * (i + 1) + j - (packInstrument x).length = 9 * i + j := by omega
      rw [List.getElem?_append_right (by omega), hidx]
      exact ih hi

/-! ### The store after the parts of a tune are written -/

/-- The halves of a configuration word make it again. -/
theorem highHalf_append_lowHalf (v : Long) : highHalf v ++ lowHalf v = v :=
  (BitVec.extractLsb'_append_extractLsb'_eq_extractLsb' rfl).trans BitVec.extractLsb'_eq_self

/-- A 32-bit word whose halves are read is read (R64). -/
theorem Memory.readLong_of_halves {m : Memory} {a : Nat} {v : Long} (hlow : m.readWord a = some (lowHalf v))
    (hhigh : m.readWord (a + 2) = some (highHalf v)) : m.readLong a = some v := by
  rw [Memory.readLong, hlow, hhigh]
  exact congrArg some (highHalf_append_lowHalf v)

/-- The configuration words are read back. -/
theorem ImageParts.readWord_store_cfg (p : ImageParts) (m : Memory) {k : Nat} (hk : k < p.cfg.length)
    (h : p.cfg.length = 4) : (p.store m).readWord (Config.cfgBase + 2 * k) = p.cfg[k]? := by
  have hinstr := cfg_below_instr 0 0
  have hcode := instr_below_code (i := 0) (j := 0) (by omega) (by omega) 0 0
  rw [ImageParts.store, readWord_writeStores_below _ _ (by omega),
    Memory.readWord_writeWords_other _ _ (.inl (by omega)), Memory.readWord_writeWords_same _ _ hk]

/-- The words of at most 4096 records are read back. -/
theorem ImageParts.readWord_store_record (p : ImageParts) (m : Memory) {i j : Nat} (hi : i < 4096) (hj : j < 9)
    (h : 9 * i + j < p.records.length) : (p.store m).readWord (instrAddr i j) = p.records[9 * i + j]? := by
  have hcode := instr_below_code hi hj 0 0
  rw [ImageParts.store, readWord_writeStores_below _ _ (by omega), instrAddr_eq i j,
    Memory.readWord_writeWords_same _ _ h]

/-- The words of command stores within R4 are read back. -/
theorem ImageParts.readWord_store_code {p : ImageParts} (m : Memory) {code : List Word} {c k : Nat}
    (hs : ∀ ws ∈ p.stores, ws.length ≤ 4096) (hc : p.stores[c]? = some code) (hk : k < code.length) :
    (p.store m).readWord (codeAddr c k) = code[k]? := by
  have h := readWord_writeStores_same ((m.writeWords Config.cfgBase p.cfg).writeWords (instrAddr 0 0) p.records)
    (c := 0) hs hc hk
  rwa [Nat.zero_add] at h

/-! ### A state that holds a tune -/

/-- The state's store and sizes are those of the tune, whatever the store held before. -/
structure State.Holds (s : State) (t : Tune) : Prop where
  store : ∃ m, s.mem = (tuneParts t).store m
  ninstr : s.params.ninstr = t.instruments.length
  codeLen : s.params.codeLen = t.code.map List.length

theorem State.loadParts_holds (s : State) (t : Tune) : (s.loadParts (tuneParts t)).Holds t := ⟨⟨_, rfl⟩, rfl, rfl⟩

theorem State.launched_holds (p : Params) (t : Tune) : (State.launched p t).Holds t := ⟨⟨_, rfl⟩, rfl, rfl⟩

theorem State.Holds.cfgWord {s : State} {t : Tune} {k : Nat} (h : s.Holds t) (hk : k < 4) :
    s.mem.readWord (Config.cfgBase + 2 * k) = (tuneParts t).cfg[k]? := by
  obtain ⟨m, hm⟩ := h.store
  rw [hm]
  exact (tuneParts t).readWord_store_cfg m hk rfl

theorem State.Holds.sampleRate {s : State} {t : Tune} (h : s.Holds t) : s.sampleRate = some t.sampleRate :=
  Memory.readLong_of_halves (h.cfgWord (k := 0) (by decide)) (h.cfgWord (k := 1) (by decide))

theorem State.Holds.beatLen {s : State} {t : Tune} (h : s.Holds t) : s.beatLen = some t.beatLen :=
  Memory.readLong_of_halves (h.cfgWord (k := 2) (by decide)) (h.cfgWord (k := 3) (by decide))

theorem State.Holds.instrWord {s : State} {t : Tune} {ins : Instrument} {i j : Nat} (h : s.Holds t)
    (hn : t.instruments.length ≤ 4096) (hi : t.instruments[i]? = some ins) (hj : j < 9) :
    s.instrWord (BitVec.ofNat 12 i) j = (packInstrument ins)[j]? := by
  obtain ⟨m, hm⟩ := h.store
  have hlt : i < t.instruments.length := (List.getElem?_eq_some_iff.1 hi).1
  have hindex : (BitVec.ofNat 12 i).toNat = i := by
    rw [BitVec.toNat_ofNat]; omega
  have hrecords := tuneParts_records_length t
  rw [State.instrWord, hm, hindex, (tuneParts t).readWord_store_record m (by omega) hj (by omega)]
  exact getElem?_flatten_records hi hj

theorem State.Holds.codeLen_eq {s : State} {t : Tune} {code : List Word} {c : Nat} (h : s.Holds t)
    (hc : t.code[c]? = some code) : s.codeLen c = code.length := by
  rw [State.codeLen, h.codeLen, List.getD_eq_getElem?_getD, List.getElem?_map, hc]
  rfl

theorem State.Holds.codeWord {s : State} {t : Tune} {code : List Word} {c k : Nat} (h : s.Holds t)
    (hs : ∀ ws ∈ t.code, ws.length ≤ 4096) (hc : t.code[c]? = some code) (hk : k < code.length) :
    s.codeWord c (BitVec.ofNat 16 k) = code[k]? := by
  obtain ⟨m, hm⟩ := h.store
  have hlen : code.length ≤ 4096 := hs code (List.mem_of_getElem? hc)
  have hindex : (BitVec.ofNat 16 k).toNat = k := by
    rw [BitVec.toNat_ofNat]; omega
  rw [State.codeWord, hm, hindex]
  exact ImageParts.readWord_store_code m hs hc hk

/-- Settles O52: the image loaded is the parts of the tune loaded, and those are read back. -/
theorem loadedImageReadsBack : Obligations.LoadedImageReadsBack := by
  intro s u t hn hc hs hu
  rw [State.load_tuneImage s hn hc hs] at hu
  have hold : u.Holds t := hu ▸ s.loadParts_holds t
  have hch : u.ch = List.replicate t.code.length Channel.reset := hu ▸ s.loadParts_ch (tuneParts t)
  exact ⟨hold.sampleRate, hold.beatLen, hold.ninstr, hch, fun _ _ hi _ hj => hold.instrWord hn hi hj,
    fun _ _ hcode => ⟨hold.codeLen_eq hcode, fun _ hk => hold.codeWord hs hcode hk⟩⟩

/-- Settles O56: a launched tune's parts are stored whatever its number of channels, and those are read back. -/
theorem launchedTuneReadsBack : Obligations.LaunchedTuneReadsBack := by
  rintro p t _ hn hs rfl
  have hold := State.launched_holds p t
  exact ⟨⟨rfl, rfl⟩, rfl, State.busy_of_idle rfl, rfl, hold.ninstr, hold.sampleRate, hold.beatLen,
    fun _ _ hi _ hj => hold.instrWord hn hi hj,
    fun _ _ hcode => ⟨hold.codeLen_eq hcode, fun _ hk => hold.codeWord hs hcode hk⟩⟩

end Sys2Proof.Machine
end

section
/-! The encoding (30_encoding.md R80 to R85, R89): a word decodes to a command exactly where its number is the match value of
the command's row plus the operand. The inverse, the rows by mask and match, the operands and the illegal words follow. -/

namespace Sys2Proof.Machine

open Laws.RowWord (pattern operand)

/-! ### The decoder on words -/

/-- A command's word as a number (R80, R81). -/
theorem toNat_encode (i : Instr) : (encode i).toNat = (pattern i).toNat + operand i := by
  cases i with
  | note p => exact (Laws.RowWord.note p).2
  | seti a => exact (Laws.RowWord.seti a).2
  | beat a => exact (Laws.RowWord.beat a).2
  | jump a => exact (Laws.RowWord.jump a).2
  | rept a => exact (Laws.RowWord.rept a).2
  | pan o => exact (Laws.RowWord.pan o).2

/-- The operand field of a word of a row with a 12-bit operand. -/
theorem extract_operand_12 {w : Word} {n : Nat} {a : BitVec 12} (h : w.toNat = 4096 * n + a.toNat) :
    w.extractLsb' 0 12 = a := by
  apply BitVec.eq_of_toNat_eq
  rw [toNat_operand_12]
  omega

/-- The operand field of a word of a row with an 8-bit operand. -/
theorem extract_operand_8 {w : Word} {n : Nat} {a : BitVec 8} (h : w.toNat = 256 * n + a.toNat) :
    w.extractLsb' 0 8 = a := by
  apply BitVec.eq_of_toNat_eq
  rw [toNat_operand_8]
  omega

/-- The word of a row's match value plus an operand decodes to that row's command with that operand. -/
theorem decodeWord_of_toNat {w : Word} {i : Instr} (h : w.toNat = (pattern i).toNat + operand i) :
    decodeWord w = some i := by
  rw [decodeWord_eq]
  cases i with
  | note p =>
    have hw : w.toNat = 256 * 0 + p.toNat := h
    rw [if_pos (by omega), extract_operand_8 hw]
  | seti a =>
    have hw : w.toNat = 4096 * 1 + a.toNat := h
    rw [if_neg (by omega), if_pos (by omega), extract_operand_12 hw]
  | beat a =>
    have hw : w.toNat = 4096 * 2 + a.toNat := h
    rw [if_neg (by omega), if_neg (by omega), if_pos (by omega), extract_operand_12 hw]
  | jump a =>
    have hw : w.toNat = 4096 * 3 + a.toNat := h
    rw [if_neg (by omega), if_neg (by omega), if_neg (by omega), if_pos (by omega), extract_operand_12 hw]
  | rept a =>
    have hw : w.toNat = 4096 * 4 + a.toNat := h
    rw [if_neg (by omega), if_neg (by omega), if_neg (by omega), if_neg (by omega), if_pos (by omega),
      extract_operand_12 hw]
  | pan o =>
    have hw : w.toNat = 256 * 80 + o.toNat := h
    rw [if_neg (by omega), if_neg (by omega), if_neg (by omega), if_neg (by omega), if_neg (by omega),
      if_pos (by omega), extract_operand_8 hw]

/-- A word that decodes is the row's match value plus the operand (R81, R82). -/
theorem toNat_of_decodeWord {w : Word} {i : Instr} (h : decodeWord w = some i) :
    w.toNat = (pattern i).toNat + operand i := by
  rw [decodeWord_eq] at h
  split_ifs at h
  all_goals
    cases h
    simp only [pattern, operand, toNat_operand_8, toNat_operand_12, BitVec.toNat_ofNat]
    omega

/-- The decoder in one equation between numbers (R80 to R82). -/
theorem decodeWord_eq_some_iff {w : Word} {i : Instr} :
    decodeWord w = some i ↔ w.toNat = (pattern i).toNat + operand i :=
  ⟨toNat_of_decodeWord, decodeWord_of_toNat⟩

/-- The decoder inverts the encoder, and no two words decode to one command. -/
theorem decodeWord_eq_some_iff_encode {w : Word} {i : Instr} : decodeWord w = some i ↔ encode i = w := by
  rw [decodeWord_eq_some_iff, ← toNat_encode, BitVec.toNat_inj, eq_comm]

@[simp] theorem decodeWord_encode (i : Instr) : decodeWord (encode i) = some i :=
  decodeWord_eq_some_iff_encode.2 rfl

/-- The illegal words as numbers (R83). -/
theorem decodeWord_eq_none_iff (w : Word) :
    decodeWord w = none ↔
      6 ≤ w.toNat / 4096 ∨ ((w.toNat / 4096 = 0 ∨ w.toNat / 4096 = 5) ∧ w.toNat / 256 % 16 ≠ 0) := by
  rw [decodeWord_eq]
  split_ifs
  all_goals
    simp only [false_iff, true_iff]
    omega

/-! ### The decoder on bytes -/

/-- Two bytes whose word is a command decode to it (R65). -/
theorem decode_of_command {lo hi : Byte} {i : Instr} (h : decodeWord (wordOfBytes lo hi) = some i) (rest : List Byte) :
    decode (lo :: hi :: rest) = .ok (i, rest) := by
  rw [decode, h]

/-- Two bytes whose word is illegal are rejected (R83). -/
theorem decode_of_illegal {lo hi : Byte} (h : decodeWord (wordOfBytes lo hi) = none) (rest : List Byte) :
    decode (lo :: hi :: rest) = .error (.illegalCommand (wordOfBytes lo hi)) := by
  rw [decode, h]

theorem decode_encodeBytes_append (i : Instr) (rest : List Byte) :
    decode (encodeBytes i ++ rest) = .ok (i, rest) :=
  decode_of_command (by rw [wordOfBytes_low_high, decodeWord_encode]) rest

/-- Settles O1: both halves are the decoder's equation between numbers, read on bytes and on words. -/
theorem decodeInvertsEncode : Obligations.DecodeInvertsEncode :=
  ⟨decode_encodeBytes_append, fun _ _ => decodeWord_eq_some_iff_encode⟩

/-! ### The rows by mask and match -/

/-- A word is a match value plus a 12-bit operand exactly when the row's mask leaves the match value. -/
theorem exists_operand_12_iff (w m : Word) (h : m.toNat % 4096 = 0) :
    (∃ a : BitVec 12, w.toNat = m.toNat + a.toNat) ↔ w &&& 0xF000#16 = m := by
  rw [and_F000_eq_iff w m h]
  constructor
  · rintro ⟨a, ha⟩
    omega
  · intro hq
    refine ⟨w.extractLsb' 0 12, ?_⟩
    rw [toNat_operand_12]
    omega

/-- A word is a match value plus an 8-bit operand exactly when the row's mask leaves the match value. -/
theorem exists_operand_8_iff (w m : Word) (h : m.toNat % 256 = 0) :
    (∃ a : BitVec 8, w.toNat = m.toNat + a.toNat) ↔ w &&& 0xFF00#16 = m := by
  rw [and_FF00_eq_iff w m h]
  constructor
  · rintro ⟨a, ha⟩
    omega
  · intro hq
    refine ⟨w.extractLsb' 0 8, ?_⟩
    rw [toNat_operand_8]
    omega

/-- Settles O2, row by row. -/
theorem commandByMaskAndMatch : Obligations.CommandByMaskAndMatch := fun w =>
  ⟨(exists_congr fun _ => decodeWord_eq_some_iff).trans (exists_operand_8_iff w 0x0000#16 rfl),
    (exists_congr fun _ => decodeWord_eq_some_iff).trans (exists_operand_12_iff w 0x1000#16 rfl),
    (exists_congr fun _ => decodeWord_eq_some_iff).trans (exists_operand_12_iff w 0x2000#16 rfl),
    (exists_congr fun _ => decodeWord_eq_some_iff).trans (exists_operand_12_iff w 0x3000#16 rfl),
    (exists_congr fun _ => decodeWord_eq_some_iff).trans (exists_operand_12_iff w 0x4000#16 rfl),
    (exists_congr fun _ => decodeWord_eq_some_iff).trans (exists_operand_8_iff w 0x5000#16 rfl)⟩

/-! ### The operands -/

/-- A 12-bit operand is the word's low 12 bits. -/
theorem argValue_eq_mod {w : Word} {n : Nat} {a : BitVec 12} (h : w.toNat = 4096 * n + a.toNat) :
    argValue a = w.toNat % 4096 := by
  rw [argValue]
  omega

/-- An offset is the word's low byte as two's complement (R81). -/
theorem offsetValue_eq {w : Word} {n : Nat} {o : BitVec 8} (h : w.toNat = 256 * n + o.toNat) :
    offsetValue o = if w.toNat % 256 < 128 then (w.toNat % 256 : Int) else (w.toNat % 256 : Int) - 256 := by
  have ho : o.toNat = w.toNat % 256 := by omega
  rw [offsetValue, BitVec.toInt_eq_toNat_cond, ho]
  split_ifs <;> omega

/-- Settles O3: each operand read off the word's number. -/
theorem operandAssembly : Obligations.OperandAssembly := by
  intro w i h
  have hw := toNat_of_decodeWord h
  cases i with
  | note p =>
    have hw : w.toNat = 256 * 0 + p.toNat := hw
    exact ⟨by rw [pitchValue]; omega, by omega⟩
  | seti a => exact argValue_eq_mod (n := 1) hw
  | beat a => exact argValue_eq_mod (n := 2) hw
  | jump a => exact argValue_eq_mod (n := 3) hw
  | rept a => exact argValue_eq_mod (n := 4) hw
  | pan o =>
    have hw : w.toNat = 256 * 80 + o.toNat := hw
    exact ⟨by omega, offsetValue_eq hw⟩

/-- Settles O5: closed words, decoded. -/
theorem workedEncodings : Obligations.WorkedEncodings := by
  unfold Obligations.WorkedEncodings
  decide

/-! ### Fetching a word (R160, R206) -/

/-- A loaded word is made of its two loaded bytes, the low one first (R65). -/
theorem Memory.readWord_eq_some {m : Memory} {a : Nat} {w : Word} (h : m.readWord a = some w) :
    ∃ lo hi, m.read a = some lo ∧ m.read (a + 1) = some hi ∧ wordOfBytes lo hi = w := by
  unfold Memory.readWord at h
  split at h
  · rename_i lo hi hlo hhi
    exact ⟨lo, hi, hlo, hhi, Option.some.inj h⟩
  · cases h

/-- A fetch of a loaded word inside the store is that word decoded (R160). -/
theorem State.fetch_loaded {s : State} {pc w : Word} (hpc : pc.toNat < s.codeLen s.cur)
    (hw : s.codeWord s.cur pc = some w) :
    s.fetch pc = (decodeWord w).elim (.raises .illegalCommand) .command := by
  obtain ⟨lo, hi, hlo, hhi, rfl⟩ := Memory.readWord_eq_some hw
  rw [State.fetch, if_neg (Nat.not_le.2 hpc), hlo, hhi]
  cases hd : decodeWord (wordOfBytes lo hi) with
  | some i => simp only [decode_of_command hd, Option.elim_some]
  | none => simp only [decode_of_illegal hd, Option.elim_none]

/-- In an execute phase the step is one command of `Execute` (R168). -/
theorem State.Executing.step_eq {s : State} {c : Channel} (hx : s.Executing c) : step s = s.executeOne := by
  obtain ⟨hl, hr, ⟨e, hp⟩, -⟩ := hx
  have hb : s.busy = true := (State.busy_iff s).2 ⟨hr, by simp [hp]⟩
  rw [step_of_clear hl, if_pos hb, hp]

/-- A step whose fetch raises a fault is the fault's entry (R204). -/
theorem State.Executing.step_of_fetch_raises {s : State} {c : Channel} {cause : FaultCause} (hx : s.Executing c)
    (hf : s.fetch c.pc = .raises cause) : step s = .next (s.faultedBy cause c.pc) := by
  have hc : s.chan = some c := hx.chan
  rw [hx.step_eq, State.executeOne, State.onChan_of_chan hc, hf, ← State.raise_running hx.running]

/-- Settles O4: the illegal words as numbers, and the fetch that raises. -/
theorem illegalWordsFault : Obligations.IllegalWordsFault := by
  refine ⟨rfl, decodeWord_eq_none_iff, fun s c w hx hpc hw hd => hx.step_of_fetch_raises ?_⟩
  rw [State.fetch_loaded hpc hw, hd, Option.elim_none]

end Sys2Proof.Machine
end

section
/-! The oscillators (40_oscillators.md R103 to R110): the triangle and the reference sine through the fold of the phase,
the reference noise through its 16-bit form. -/

namespace Sys2Proof.Machine

/-! ### Words and the fold -/

/-- A number in the range of s16 comes back from the word that holds it. -/
theorem toInt_wrapU16 {v : Int} (hlo : -32768 ≤ v) (hhi : v ≤ 32767) : (wrapU16 v).toInt = v := by
  rw [wrapU16, BitVec.toInt_ofInt]
  exact Int.bmod_eq_of_le (by omega) (by omega)

/-- The complement of a word, read as s16, is `-w - 1`. -/
theorem toInt_not_word (w : Word) : (~~~w).toInt = -w.toInt - 1 := by
  have hw := w.isLt
  rw [BitVec.toInt_eq_toNat_cond, BitVec.toInt_eq_toNat_cond, BitVec.toNat_not]
  omega

/-- On the non-negative half the sign mask changes no bit. -/
theorem xor_signMask_of_nonneg {p : Word} (hp : 0 ≤ p.toInt) (w : Word) : w ^^^ signMask p = w := by
  rw [signMask, if_neg (Int.not_lt.2 hp), BitVec.xor_zero]

/-- On the negative half the sign mask complements. -/
theorem xor_signMask_of_neg {p : Word} (hp : p.toInt < 0) (w : Word) : w ^^^ signMask p = ~~~w := by
  rw [signMask, if_pos hp, ← BitVec.xor_allOnes]
  rfl

/-- The fold as a number (R103). -/
theorem foldedPhase_eq (p : Word) : foldedPhase p = if 0 ≤ p.toInt then p.toInt else -p.toInt - 1 := by
  split
  next hp => rw [foldedPhase, xor_signMask_of_nonneg hp]
  next hp => rw [foldedPhase, xor_signMask_of_neg (Int.not_le.1 hp), toInt_not_word]

/-- The folded phase lies in one half period (R103). -/
theorem foldedPhase_bounds (p : Word) : 0 ≤ foldedPhase p ∧ foldedPhase p ≤ 32767 := by
  have hlo : -32768 ≤ p.toInt := p.le_toInt
  have hhi : p.toInt < 32768 := p.toInt_lt
  rw [foldedPhase_eq]
  omega

/-- A phase and its complement fold to the same point. -/
@[simp] theorem foldedPhase_not (p : Word) : foldedPhase (~~~p) = foldedPhase p := by
  rw [foldedPhase_eq, foldedPhase_eq, toInt_not_word]
  omega

/-! ### Square, triangle and sawtooth (R105, R107, R108) -/

/-- The square as a number. -/
theorem toInt_oscSquare (p : Word) : (oscSquare p).toInt = if 0 ≤ p.toInt then 32767 else -32768 := by
  unfold oscSquare
  split <;> exact toInt_wrapU16 (by omega) (by omega)

/-- The triangle as a number: no value leaves s16, since the fold stays within one half period. -/
theorem toInt_oscTriangle (p : Word) : (oscTriangle p).toInt = 2 * foldedPhase p - 32768 := by
  obtain ⟨hlo, hhi⟩ := foldedPhase_bounds p
  exact toInt_wrapU16 (by omega) (by omega)

/-- The triangle takes the same value on a phase and its complement. -/
@[simp] theorem oscTriangle_not (p : Word) : oscTriangle (~~~p) = oscTriangle p := by
  rw [oscTriangle, foldedPhase_not, oscTriangle]

/-- Settles O22: each waveform by its value, the triangle's through the fold. -/
theorem fixedWaveforms : Obligations.FixedWaveforms := by
  intro p ph
  have htri : (oscTriangle ph).toInt = 2 * (if 0 ≤ ph.toInt then ph.toInt else -ph.toInt - 1) - 32768 := by
    rw [toInt_oscTriangle, foldedPhase_eq]
  exact ⟨toInt_oscSquare ph, htri, oscTriangle_not ph, rfl⟩

/-! ### The reference sine (R103, R104) -/

/-- `v` of R104: the sine of a folded phase, before the sign of the half period is applied. -/
def sineHalf (x : Int) : Int :=
  32767 - asr (asr ((x - 16384) * (x - 16384)) 14
    * (40426 - asr (asr ((x - 16384) * (x - 16384)) 14 * 7659) 14)) 14

/-- The reference sine is the half wave on the folded phase, with the sign of the phase. -/
theorem oscSineReference_eq (p : Word) :
    oscSineReference p = wrapU16 (sineHalf (foldedPhase p)) ^^^ signMask p := rfl

/-- The shift of R104 as a division. -/
theorem asr_fourteen (a : Int) : asr a 14 = a / 16384 := rfl

/-- `u` of R104: the squared angle lies between 0 and 16384. -/
theorem sineAngle_bounds {x : Int} (hlo : 0 ≤ x) (hhi : x ≤ 32767) :
    0 ≤ asr ((x - 16384) * (x - 16384)) 14 ∧ asr ((x - 16384) * (x - 16384)) 14 ≤ 16384 := by
  have hsq : (x - 16384) * (x - 16384) ≤ 16384 * 16384 := by nlinarith
  have hnn : 0 ≤ (x - 16384) * (x - 16384) := mul_self_nonneg _
  rw [asr_fourteen]
  omega

/-- `t` of R104: the quadratic term lies between 0 and 7659, and its rounding loses less than one unit. -/
theorem sineQuadratic_bounds {u : Int} (hlo : 0 ≤ u) (hhi : u ≤ 16384) :
    0 ≤ asr (u * 7659) 14 ∧ asr (u * 7659) 14 ≤ 7659 ∧ 7659 * u ≤ 16384 * asr (u * 7659) 14 + 16383 := by
  rw [asr_fourteen]
  omega

/-- The product under the last shift of R104: `40426 u - 7659 u² / 16384` rises up to `u = 16384`, where it is
`16384 * 32767`, and the rounding of `t` adds less than 16384. -/
theorem sineProduct_bounds {u t : Int} (hlo : 0 ≤ u) (hhi : u ≤ 16384) (ht : t ≤ 7659)
    (hround : 7659 * u ≤ 16384 * t + 16383) : 0 ≤ u * (40426 - t) ∧ u * (40426 - t) < 16384 * 32768 := by
  have hterm : 0 ≤ u * (16384 * t + 16383 - 7659 * u) := mul_nonneg hlo (by omega)
  have hrise : 0 ≤ (16384 - u) * (16384 * 40426 + 16383 - 7659 * (16384 + u)) := mul_nonneg (by omega) (by omega)
  exact ⟨mul_nonneg hlo (by omega), by nlinarith only [hterm, hrise]⟩

/-- The half wave lies between 0 and 32767 (R104). -/
theorem sineHalf_bounds {x : Int} (hlo : 0 ≤ x) (hhi : x ≤ 32767) : 0 ≤ sineHalf x ∧ sineHalf x ≤ 32767 := by
  obtain ⟨hu0, hu1⟩ := sineAngle_bounds hlo hhi
  obtain ⟨-, ht, hround⟩ := sineQuadratic_bounds hu0 hu1
  obtain ⟨hp0, hp1⟩ := sineProduct_bounds hu0 hu1 ht hround
  rw [sineHalf, asr_fourteen (_ * (40426 - _))]
  omega

/-- The half wave as the word that holds it. -/
theorem toInt_wrapU16_sineHalf (p : Word) :
    (wrapU16 (sineHalf (foldedPhase p))).toInt = sineHalf (foldedPhase p) := by
  obtain ⟨hlo, hhi⟩ := foldedPhase_bounds p
  obtain ⟨hv0, hv1⟩ := sineHalf_bounds hlo hhi
  exact toInt_wrapU16 (by omega) hv1

/-- On the non-negative half the reference sine is the half wave. -/
theorem oscSineReference_of_nonneg {p : Word} (hp : 0 ≤ p.toInt) :
    oscSineReference p = wrapU16 (sineHalf (foldedPhase p)) := by
  rw [oscSineReference_eq, xor_signMask_of_nonneg hp]

/-- On the negative half the reference sine is the complement of the half wave. -/
theorem oscSineReference_of_neg {p : Word} (hp : p.toInt < 0) :
    oscSineReference p = ~~~wrapU16 (sineHalf (foldedPhase p)) := by
  rw [oscSineReference_eq, xor_signMask_of_neg hp]

/-- The reference sine is odd under the fold (R103): the half wave is the same, the sign the other one. -/
theorem oscSineReference_not (p : Word) : oscSineReference (~~~p) = ~~~oscSineReference p := by
  have hnot := toInt_not_word p
  rcases le_or_gt 0 p.toInt with hp | hp
  · rw [oscSineReference_of_neg (p := ~~~p) (by omega), foldedPhase_not, oscSineReference_of_nonneg hp]
  · rw [oscSineReference_of_nonneg (p := ~~~p) (by omega), foldedPhase_not, oscSineReference_of_neg hp,
      BitVec.not_not]

/-- The reference sine as a number. -/
theorem toInt_oscSineReference (p : Word) : (oscSineReference p).toInt
    = if 0 ≤ p.toInt then sineHalf (foldedPhase p) else -sineHalf (foldedPhase p) - 1 := by
  split
  next hp => rw [oscSineReference_of_nonneg hp, toInt_wrapU16_sineHalf]
  next hp => rw [oscSineReference_of_neg (Int.not_le.1 hp), toInt_not_word, toInt_wrapU16_sineHalf]

/-- Settles O23: the sign follows from the half wave being non-negative; the corner values are evaluated. -/
theorem referenceSineShape : Obligations.ReferenceSineShape := by
  refine ⟨fun ph => ?_, by decide⟩
  obtain ⟨hlo, hhi⟩ := foldedPhase_bounds ph
  have hv : 0 ≤ sineHalf (foldedPhase ph) := (sineHalf_bounds hlo hhi).1
  have hs := toInt_oscSineReference ph
  refine ⟨oscSineReference_not ph, fun hp => ?_, fun hp => ?_⟩
  · rw [hs, if_pos hp]
    exact hv
  · rw [hs, if_neg (Int.not_le.2 hp)]
    omega

/-! ### The reference noise (R110) -/

/-- The low half of a sign-extended word is the word. -/
theorem setWidth_signExtend_word (w : Word) : (w.signExtend 32).setWidth 16 = w := by
  ext i hi
  have hi' : i < 32 := by omega
  rw [BitVec.getElem_setWidth, BitVec.getLsbD_signExtend, if_pos hi, decide_eq_true hi', Bool.true_and,
    BitVec.getLsbD_eq_getElem hi]

/-- The reference noise computed modulo 2^16 throughout: truncation commutes with every sum and product. -/
theorem oscNoiseReference_eq_word (p : Word) :
    oscNoiseReference p = p * (p * p * 15731#16 + 789221#16) + 1376312589#16 := by
  have htrunc : (16 : Nat) ≤ 32 := by omega
  simp only [oscNoiseReference, BitVec.setWidth_add _ _ htrunc, BitVec.setWidth_mul _ _ htrunc,
    setWidth_signExtend_word]
  rfl

/-- The reference noise as a number. -/
theorem toNat_oscNoiseReference (p : Word) : (oscNoiseReference p).toNat
    = (p.toNat * (p.toNat * p.toNat * 15731 + 789221) + 1376312589) % 65536 := by
  have hword : oscNoiseReference p
      = BitVec.ofNat 16 (p.toNat * (p.toNat * p.toNat * 15731 + 789221) + 1376312589) := by
    simp only [oscNoiseReference_eq_word, BitVec.ofNat_add, BitVec.ofNat_mul, BitVec.ofNat_toNat, BitVec.setWidth_eq]
  rw [hword, BitVec.toNat_ofNat]

/-- The noise polynomial is odd for every `n`: its first term is even, its last constant odd. -/
theorem noisePolynomial_mod_two (n : Nat) : (n * (n * n * 15731 + 789221) + 1376312589) % 2 = 1 := by
  rcases Nat.mod_two_eq_zero_or_one n with hn | hn <;> simp [Nat.add_mod, Nat.mul_mod, hn]

/-- So the reference noise is odd, and never -32768. -/
theorem oscNoiseReference_bounds (p : Word) :
    -32767 ≤ (oscNoiseReference p).toInt ∧ (oscNoiseReference p).toInt ≤ 32767 := by
  have hodd : (oscNoiseReference p).toNat % 2 = 1 := by
    rw [toNat_oscNoiseReference, Nat.mod_mod_of_dvd _ (by decide), noisePolynomial_mod_two]
  have hlt := (oscNoiseReference p).isLt
  rw [BitVec.toInt_eq_toNat_cond]
  omega

/-- Settles O24: the 16-bit form, read as a number, bounded by its parity. -/
theorem referenceNoisePolynomial : Obligations.ReferenceNoisePolynomial := by
  intro ph
  obtain ⟨hlo, hhi⟩ := oscNoiseReference_bounds ph
  exact ⟨toNat_oscNoiseReference ph, oscNoiseReference_eq_word ph, hlo, hhi, by decide⟩

end Sys2Proof.Machine
end

section
/-! The derived values of an instrument (41_instrument.md R122 to R129): the carrier base by octaves, the rounding division
by its quotient, the stage counts by what each takes, the stage delta by the remainder it leaves. -/

namespace Sys2Proof.Machine

/-! ### Octave, index and carrier base (R123) -/

/-- The octave counted from the top and the one counted from the bottom share the nine octaves. -/
theorem octaveOf_eq {p : Nat} (hp : p ≤ 107) : octaveOf p = 8 - p / 12 := by
  unfold octaveOf
  omega

/-- The index into the top octave is the note within its octave. -/
theorem tableIndex_eq_mod {p : Nat} (hp : p ≤ 107) : tableIndex p = p % 12 := by
  rw [tableIndex, octaveOf_eq hp]
  omega

/-- Settles O25: octave and index as numbers, the shift as a division. -/
theorem octaveAndIndex : Obligations.OctaveAndIndex := by
  intro p table hp
  have hoct := octaveOf_eq hp
  refine ⟨by omega, tableIndex_eq_mod hp, by omega, ?_⟩
  rw [carrierBase, tableIndex_eq_mod hp, hoct, Nat.shiftRight_eq_div_pow]

/-! ### The rounding division (R124) -/

/-- The rounding division by its formula, half the rate as a floor. -/
theorem roundDiv_eq_tdiv {sr : Int} (b : Int) (hsr : 0 ≤ sr + 1) :
    roundDiv b sr = (b - (sr + 1) / 2).tdiv sr + 1 := by
  rw [roundDiv, divTrunc, divTrunc, Int.tdiv_eq_ediv_of_nonneg hsr]

/-- From half the rate on nothing is truncated: the quotient is `b / sr` to the nearest, halves up. -/
theorem roundDiv_of_half_le {b sr : Int} (hsr : 1 ≤ sr) (hb : (sr + 1) / 2 ≤ b) :
    roundDiv b sr = (b + sr / 2) / sr := by
  have hnum : b - (sr + 1) / 2 + 1 * sr = b + sr / 2 := by omega
  rw [roundDiv_eq_tdiv b (by omega), Int.tdiv_eq_ediv_of_nonneg (by omega), ← hnum,
    Int.add_mul_ediv_right _ _ (by omega)]

/-- A dividend smaller than the divisor in magnitude leaves the quotient 0. -/
theorem divTrunc_eq_zero_of_natAbs_lt {a b : Int} (h : a.natAbs < b.natAbs) : divTrunc a b = 0 := by
  rw [← Int.natAbs_eq_zero, divTrunc, Int.natAbs_tdiv]
  exact Nat.div_eq_of_lt h

/-- Below half the rate and above U4's bound the quotient truncates to 0. -/
theorem roundDiv_of_lt_half {b sr : Int} (hsr : 1 ≤ sr) (hb : b < (sr + 1) / 2)
    (hlow : -sr < b - (sr + 1) / 2) : roundDiv b sr = 1 := by
  have hzero : divTrunc (b - (sr + 1) / 2) sr = 0 := divTrunc_eq_zero_of_natAbs_lt (by omega)
  rw [divTrunc] at hzero
  rw [roundDiv_eq_tdiv b (by omega), hzero, Int.zero_add]

/-- Settles O26: the formula, its two ranges, and U4's condition from the rate 2 on. -/
theorem roundDivRoundsToNearest : Obligations.RoundDivRoundsToNearest := by
  refine ⟨fun b sr hsr => ⟨roundDiv_eq_tdiv b (by omega), roundDiv_of_half_le hsr,
    fun _ hb hlow => roundDiv_of_lt_half hsr hb hlow, fun _ _ _ => ?_⟩, by decide⟩
  omega

/-! ### The reference values (R126) -/

/-- Settles O27: closed values of the default table, evaluated. -/
theorem referenceSteps : Obligations.ReferenceSteps := by
  unfold Obligations.ReferenceSteps
  decide

/-! ### The stage counts (R127) -/

/-- A time in 1/4096 s as frames, the shift as a division. -/
theorem timeFrames_eq_div (time : Word) (sr : Nat) : timeFrames time sr = time.toNat * sr / 4096 :=
  Nat.shiftRight_eq_div_pow _ 12

/-- The attack takes its frames, clamped to the note's length. -/
theorem stageCounts_attack (sr : Nat) (att dec rel : Word) (len : Nat) :
    (stageCounts sr att dec rel len).attack = min (att.toNat * sr / 4096) len := by
  rw [stageCounts, timeFrames_eq_div]

/-- The decay takes its frames, clamped to what the attack leaves. -/
theorem stageCounts_decay (sr : Nat) (att dec rel : Word) (len : Nat) :
    (stageCounts sr att dec rel len).decay
      = min (dec.toNat * sr / 4096) (len - (stageCounts sr att dec rel len).attack) := by
  rw [← timeFrames_eq_div, stageCounts]

/-- The release takes its frames, clamped to what attack and decay leave. -/
theorem stageCounts_release (sr : Nat) (att dec rel : Word) (len : Nat) :
    (stageCounts sr att dec rel len).release = min (rel.toNat * sr / 4096)
      (len - (stageCounts sr att dec rel len).attack - (stageCounts sr att dec rel len).decay) := by
  rw [← timeFrames_eq_div, stageCounts]

/-- Settles O28: each count by its clamp; where attack and decay fit, neither clamp takes anything. -/
theorem stageCountsSumToLength : Obligations.StageCountsSumToLength := by
  rintro sr att dec rel len n rfl
  have hattack := stageCounts_attack sr att dec rel len
  have hdecay := stageCounts_decay sr att dec rel len
  refine ⟨hattack, hdecay, stageCounts_release sr att dec rel len, stageCounts_sum sr att dec rel len,
    fun hfit => ?_⟩
  have hattackFits : (stageCounts sr att dec rel len).attack = att.toNat * sr / 4096 :=
    hattack.trans (Nat.min_eq_left (by omega))
  rw [hattackFits] at hdecay
  exact ⟨hattackFits, hdecay.trans (Nat.min_eq_left (by omega))⟩

/-! ### The stage delta (R128, R129) -/

/-- A stage without frames takes the whole step at once. -/
@[simp] theorem stageDelta_zero (total : Int) : stageDelta total 0 = total := rfl

/-- A stage with frames divides its step among them. -/
theorem stageDelta_of_pos {n : Nat} (total : Int) (hn : 0 < n) : stageDelta total n = total.tdiv n :=
  if_pos hn

/-- What a stage with frames falls short of its step is the remainder of the division. -/
theorem sub_mul_stageDelta {n : Nat} (total : Int) (hn : 0 < n) :
    total - n * stageDelta total n = total.tmod n := by
  rw [stageDelta_of_pos total hn, Int.tmod_def]

/-- P2 of R129: the shortfall is less than the frame count. -/
theorem natAbs_sub_mul_stageDelta_lt {n : Nat} (total : Int) (hn : 0 < n) :
    (total - n * stageDelta total n).natAbs < n := by
  rw [sub_mul_stageDelta total hn, Int.natAbs_tmod]
  exact Nat.mod_lt _ hn

/-- P3 of R129: the frames of a stage never pass its step. -/
theorem natAbs_mul_stageDelta_le {n : Nat} (total : Int) (hn : 0 < n) :
    (n * stageDelta total n).natAbs ≤ total.natAbs := by
  rw [stageDelta_of_pos total hn, Int.natAbs_mul, Int.natAbs_tdiv]
  exact Nat.mul_div_le _ _

/-- Settles O29: P2 and P3 for a stage with frames, the whole step for one without. -/
theorem stageDeltaFallsShort : Obligations.StageDeltaFallsShort := by
  intro total n
  exact ⟨fun hn => ⟨natAbs_sub_mul_stageDelta_lt total hn, natAbs_mul_stageDelta_le total hn⟩,
    stageDelta_zero total⟩

end Sys2Proof.Machine
end

section
/-! The datapath of one frame (42_envelope_wavegen.md R141 to R151): what SkipZeroStages passes, the numbers of the modulator,
the scaling and the mix, the frame of a channel that sounds, and why only an unloaded word can stop it. -/

namespace Sys2Proof.Machine

/-! ### SkipZeroStages (R141) -/

/-- `SkipZeroStages` at an empty stage: its deltas applied once, the cursor moved on, and again. -/
theorem Channel.skipZeroStages_of_empty {c : Channel} {k : Fin 4} (hk : c.stage = some k) (he : c.efr.get k = 0#32) :
    c.skipZeroStages = ((c.applyDelta k).passStage k).skipZeroStages :=
  calc c.skipStages 4
    _ = c.skipStages 5 := (Channel.skipStages_stable 4 c (by omega)).symm
    _ = ((c.applyDelta k).passStage k).skipStages 4 := Channel.skipStages_succ_empty 4 hk he

/-- `u` is reached from `c` by passing stages without a frame: the counts as they were, the cursor not moved back. -/
structure Channel.PassesEmpty (c u : Channel) : Prop where
  efr : u.efr = c.efr
  forward : c.ecur ≤ u.ecur
  passed : ∀ k : Fin 4, c.ecur.val ≤ k.val → k.val < u.ecur.val → c.efr.get k = 0#32

/-- Where no stage is passed there is none to look at. -/
theorem Channel.PassesEmpty.refl (c : Channel) : c.PassesEmpty c := ⟨rfl, le_rfl, fun _ _ _ => by omega⟩

/-- One more empty stage passed. -/
theorem Channel.PassesEmpty.pass {c u : Channel} {k : Fin 4} (h : c.PassesEmpty u) (hk : u.stage = some k)
    (he : u.efr.get k = 0#32) : c.PassesEmpty ((u.applyDelta k).passStage k) := by
  have hcur := Channel.stage_eq_some.1 hk
  have hnext : ((u.applyDelta k).passStage k).ecur.val = k.val + 1 := by simp
  have hforward := Fin.le_def.1 h.forward
  refine ⟨h.efr, Fin.le_def.2 (by omega), fun j hge hlt => ?_⟩
  by_cases hj : j = k
  · rw [hj, ← h.efr, he]
  · have := Fin.val_ne_of_ne hj
    exact h.passed j hge (by omega)

/-- `SkipZeroStages` moves the cursor forward, and past empty stages only. -/
theorem Channel.skipZeroStages_passesEmpty (c : Channel) : c.PassesEmpty c.skipZeroStages :=
  Channel.skipStages_induct 4 c (.refl c) fun _ _ h hk he => h.pass hk he

/-- Settles O30: the loop does nothing at a stage with a frame or past the last, and unrolls once at an empty one. -/
theorem skipZeroStagesPassesEmptyStages : Obligations.SkipZeroStagesPassesEmptyStages := by
  refine ⟨fun a d hlo hhi => toInt_addAmplitude ?_, fun c => ⟨fun h => ?_, fun k h he => ?_, fun k h he => ?_,
    c.skipZeroStages_cursorOk, c.skipZeroStages_passesEmpty.forward, c.skipZeroStages_passesEmpty.passed,
    c.skipZeroStages_frame, c.skipZeroStages_framesAhead⟩⟩
  · simp only [fitsS32, Bool.and_eq_true, decide_eq_true_eq]
    omega
  · exact Channel.skipStages_of_done 4 (Channel.stage_eq_none.2 h)
  · exact Channel.skipStages_of_frame 4 (Channel.stage_eq_some.2 h) he
  · exact Channel.skipZeroStages_of_empty (Channel.stage_eq_some.2 h) he

/-! ### The modulator (R143, R144) -/

/-- The bounds of a product whose one factor is not negative and whose other factor ranges over both signs. -/
theorem mul_bounds {m a lo hi b : Int} (hlo : lo ≤ m) (hhi : m ≤ hi) (hlo0 : lo ≤ 0) (hhi0 : 0 ≤ hi) (ha : 0 ≤ a)
    (hab : a ≤ b) : lo * b ≤ m * a ∧ m * a ≤ hi * b :=
  ⟨(mul_le_mul_of_nonpos_left hab hlo0).trans (mul_le_mul_of_nonneg_right hlo ha),
    (mul_le_mul_of_nonneg_right hhi ha).trans (mul_le_mul_of_nonneg_left hab hhi0)⟩

/-- The modulator value, its shift as a floor division. -/
theorem modValue_eq_ediv (m : Int) (modamp : Word) : modValue m modamp = m * modamp.toNat / 1048576 := rfl

/-- An s16 sample gives a modulator value of twelve bits. -/
theorem modValue_bounds {m : Int} (modamp : Word) (hlo : -32768 ≤ m) (hhi : m ≤ 32767) :
    -2048 ≤ modValue m modamp ∧ modValue m modamp ≤ 2047 := by
  have hamp := modamp.isLt
  obtain ⟨h1, h2⟩ := mul_bounds (a := modamp.toNat) (b := 65535) hlo hhi (by omega) (by omega) (by omega) (by omega)
  rw [modValue_eq_ediv]
  omega

/-- From a modulator value of at least -2048 on nothing is truncated: the increment is a floor division. -/
theorem modulatedInc_eq_ediv (cstep : Word) {mv : Int} (hlo : -2048 ≤ mv) :
    modulatedInc cstep mv = cstep.toNat * (mv + 2048) / 2048 :=
  Int.tdiv_eq_ediv_of_nonneg (mul_nonneg (by omega) (by omega))

/-- The carrier advances by less than twice its step. -/
theorem modulatedInc_bounds (cstep : Word) {mv : Int} (hlo : -2048 ≤ mv) (hhi : mv ≤ 2047) :
    0 ≤ modulatedInc cstep mv ∧ modulatedInc cstep mv ≤ 131038 := by
  have hstep := cstep.isLt
  obtain ⟨h1, h2⟩ := mul_bounds (m := cstep.toNat) (a := mv + 2048) (lo := 0) (hi := 65535) (b := 4095)
    (by omega) (by omega) le_rfl (by omega) (by omega) (by omega)
  rw [modulatedInc_eq_ediv cstep hlo]
  omega

/-- Settles O31: both products within their bounds, both divisions floors. -/
theorem modulationRanges : Obligations.ModulationRanges := by
  refine ⟨fun m modamp hlo hhi => ?_, fun cstep mv hlo hhi => ?_, fun cstep => ⟨?_, ?_⟩⟩
  · obtain ⟨h1, h2⟩ := modValue_bounds modamp hlo hhi
    exact ⟨h1, h2, by simp [modValue_eq_ediv]⟩
  · obtain ⟨h1, h2⟩ := modulatedInc_bounds cstep hlo hhi
    exact ⟨h1, h2, modulatedInc_eq_ediv cstep hlo⟩
  · rw [modulatedInc_eq_ediv cstep (by omega)]
    omega
  · rw [modulatedInc_eq_ediv cstep le_rfl]
    omega

/-! ### Scaling and mix (R146, R147) -/

/-- The contribution of a lane, both shifts as floor divisions. -/
theorem contribution_eq_ediv (cv : Int) (amp : Long) : contribution cv amp = cv * (amp.toInt / 512) / 8388608 := rfl

/-- Settles O32: the product of an s16 carrier and a 15-bit amplitude within its bounds. -/
theorem contributionRange : Obligations.ContributionRange := by
  refine fun cv amp hlo hhi => ⟨contribution_eq_ediv cv amp, fun h0 hfull => ?_⟩
  obtain ⟨h1, h2⟩ := mul_bounds (a := amp.toInt / 512) (b := 32767) hlo hhi (by omega) (by omega) (by omega) (by omega)
  rw [contribution_eq_ediv]
  omega

/-- The mixing adder's result as a number. -/
theorem toInt_outAdd (lane : Byte) (v : Int) : (outAdd lane v).toInt = (lane.toInt + v + 128) % 256 - 128 := by
  rw [outAdd, wrapS8, BitVec.toInt_ofInt, Int.bmod_def]
  omega

/-- Settles O33: all three by the sum modulo 256. -/
theorem mixWrapsModulo256 : Obligations.MixWrapsModulo256 := by
  refine fun lane v w => ⟨toInt_outAdd lane v, BitVec.eq_of_toInt_eq ?_, fun hlo hhi => ?_⟩
  · simp only [toInt_outAdd]
    omega
  · rw [toInt_outAdd]
    omega

/-! ### The envelope tick of one frame (R142) -/

/-- One kept envelope after another. -/
theorem Channel.EnvelopeSame.trans {a b c : Channel} (h : a.EnvelopeSame b) (h' : b.EnvelopeSame c) :
    a.EnvelopeSame c where
  ampL := h'.ampL.trans h.ampL
  ampR := h'.ampR.trans h.ampR
  efr := h'.efr.trans h.efr
  edl := h'.edl.trans h.edl
  edr := h'.edr.trans h.edr
  ecur := h'.ecur.trans h.ecur

/-- The rounds of the loop read and write the envelope alone. -/
theorem Channel.EnvelopeSame.skipStages {c c' : Channel} (h : c.EnvelopeSame c') (n : Nat) :
    (c.skipStages n).EnvelopeSame (c'.skipStages n) := by
  induction n generalizing c c' with
  | zero => exact h
  | succ n ih =>
    have hstage := Channel.stage_congr h.ecur
    cases hk : c.stage with
    | none => rwa [Channel.skipStages_of_done _ hk, Channel.skipStages_of_done _ (hstage.trans hk)]
    | some k =>
      by_cases he : c.efr.get k = 0#32
      · rw [Channel.skipStages_succ_empty n hk he,
          Channel.skipStages_succ_empty n (hstage.trans hk) (by rw [h.efr, he])]
        apply ih
        constructor <;> simp [h.ampL, h.ampR, h.efr, h.edl, h.edr]
      · rwa [Channel.skipStages_of_frame _ hk he,
          Channel.skipStages_of_frame _ (hstage.trans hk) (by rwa [h.efr])]

/-- With a frame left after this one the stage stays active. -/
theorem Channel.envelopeTick_of_frame_left {c : Channel} {k : Fin 4} (h : 2 ≤ (c.efr.get k).toNat) :
    c.envelopeTick k = (c.applyDelta k).countStage k := by
  obtain ⟨-, e⟩ | ⟨hz, -⟩ := c.envelopeTick_cases k
  · exact e
  · bv_omega

/-- After its last frame the stage is passed, and the empty stages after it. -/
theorem Channel.envelopeTick_of_last_frame {c : Channel} {k : Fin 4} (h : (c.efr.get k).toNat = 1) :
    c.envelopeTick k = (((c.applyDelta k).countStage k).passStage k).skipZeroStages := by
  obtain ⟨hne, -⟩ | ⟨-, e⟩ := c.envelopeTick_cases k
  · bv_omega
  · exact e

/-- `EnvelopeTick` changes the counts, the cursor and the amplitudes alone. -/
theorem Channel.envelopeTick_frame (c : Channel) (k : Fin 4) :
    c.envelopeTick k = { c with
      efr := (c.envelopeTick k).efr, ecur := (c.envelopeTick k).ecur, ampL := (c.envelopeTick k).ampL,
      ampR := (c.envelopeTick k).ampR } := by
  obtain ⟨-, e⟩ | ⟨-, e⟩ := c.envelopeTick_cases k
  · rw [e]; rfl
  · rw [e, Channel.skipZeroStages_frame]; rfl

/-! ### The frame of a channel that sounds (R148, R181) -/

/-- The channel after a frame in which it sounds: rendered, and the frame counted (R148, R181). -/
def Channel.sounded (p : Params) (modamp : Word) (c : Channel) (k : Fin 4) : Channel :=
  (c.rendered p modamp k).countFrame

/-- A sounding frame changes the frames left, the phases, the counts, the cursor and the amplitudes alone. -/
theorem Channel.sounded_frame (p : Params) (ma : Word) (c : Channel) (k : Fin 4) :
    c.sounded p ma k = { c with
      nfl := (c.sounded p ma k).nfl, cph := (c.sounded p ma k).cph, mph := (c.sounded p ma k).mph,
      efr := (c.sounded p ma k).efr, ecur := (c.sounded p ma k).ecur, ampL := (c.sounded p ma k).ampL,
      ampR := (c.sounded p ma k).ampR } := by
  rw [Channel.sounded, Channel.rendered, Channel.envelopeTick_frame]
  rfl

/-- The note has one frame less. -/
theorem Channel.sounded_nfl_toInt (p : Params) (ma : Word) {c : Channel} (k : Fin 4) (h : 1 ≤ c.nfl.toInt) :
    (c.sounded p ma k).nfl.toInt = c.nfl.toInt - 1 := by
  have hnfl : (c.rendered p ma k).nfl = c.nfl := by simp [Channel.rendered]
  rw [Channel.sounded, Channel.countFrame_nfl_toInt (by rwa [hnfl]), hnfl]

/-- The active stage has one frame less, and no other stage changes. -/
theorem Channel.sounded_efr (p : Params) (ma : Word) (c : Channel) (k : Fin 4) :
    (c.sounded p ma k).efr = c.efr.set k.val (c.efr.get k - 1#32) := by
  simp [Channel.sounded, Channel.rendered]

/-- A number as the unsigned word that holds it. -/
theorem toNat_wrapU16 (v : Int) : ((wrapU16 v).toNat : Int) = v % 65536 := by
  rw [wrapU16, BitVec.toNat_ofInt]
  omega

/-- The carrier phase after the frame (R143, R144). -/
theorem Channel.sounded_cph (p : Params) (ma : Word) (c : Channel) (k : Fin 4) :
    ((c.sounded p ma k).cph.toNat : Int)
      = (c.cph.toNat + c.cstep.toNat * (modValue (c.modulatorSample p) ma + 2048) / 2048) % 65536 := by
  have hlo : -2048 ≤ modValue (c.modulatorSample p) ma :=
    (modValue_bounds ma (BitVec.le_toInt _) (Int.le_of_lt_add_one BitVec.toInt_lt)).1
  have hcph : (c.sounded p ma k).cph
      = wrapU16 (c.cph.toNat + modulatedInc c.cstep (modValue (c.modulatorSample p) ma)) := by
    simp [Channel.sounded, Channel.rendered, Channel.advancePhases]
  rw [hcph, toNat_wrapU16, modulatedInc_eq_ediv _ hlo]

/-- The modulator phase after the frame (R148). -/
theorem Channel.sounded_mph (p : Params) (ma : Word) (c : Channel) (k : Fin 4) :
    (c.sounded p ma k).mph.toNat = (c.mph.toNat + c.mstep.toNat) % 65536 := by
  have hmph : (c.sounded p ma k).mph = wrapU16 (c.mph.toNat + c.mstep.toNat) := by
    simp [Channel.sounded, Channel.rendered, Channel.advancePhases]
  have hnum := toNat_wrapU16 (c.mph.toNat + c.mstep.toNat)
  rw [hmph]
  omega

/-- With a frame left after this one the stage's deltas are added and it stays active (R142). -/
theorem Channel.sounded_of_frame_left (p : Params) (ma : Word) {c : Channel} {k : Fin 4}
    (h : 2 ≤ (c.efr.get k).toNat) : ((c.applyDelta k).countStage k).EnvelopeSame (c.sounded p ma k) := by
  have htick := Channel.envelopeTick_of_frame_left (c := c.advancePhases p ma) h
  rw [Channel.sounded, Channel.rendered, htick]
  exact ⟨rfl, rfl, rfl, rfl, rfl, rfl⟩

/-- After the stage's last frame its deltas are added, it is passed, and `SkipZeroStages` follows (R142). -/
theorem Channel.sounded_of_last_frame (p : Params) (ma : Word) {c : Channel} {k : Fin 4}
    (h : (c.efr.get k).toNat = 1) :
    (((c.applyDelta k).countStage k).passStage k).skipZeroStages.EnvelopeSame (c.sounded p ma k) := by
  have htick := Channel.envelopeTick_of_last_frame (c := c.advancePhases p ma) h
  have hsame : (((c.applyDelta k).countStage k).passStage k).EnvelopeSame
      ((((c.advancePhases p ma).applyDelta k).countStage k).passStage k) := ⟨rfl, rfl, rfl, rfl, rfl, rfl⟩
  rw [Channel.sounded, Channel.rendered, htick]
  exact (hsame.skipStages 4).trans (Channel.countFrame_envelopeSame _)

/-- Within the precondition of R148 a channel that is not silent is rendered, or stops at an unloaded `MODAMP`. -/
theorem State.renderOrSkip_of_stage {s : State} {c : Channel} {k : Fin 4} (hs : c.cstep ≠ 0#16)
    (hk : c.stage = some k) (he : c.efr.get k ≠ 0#32) (hi : c.instr.toNat < s.params.ninstr) :
    s.renderOrSkip c = (s.modamp c.instr).elim (.error .unloadedTuneWord) fun ma =>
      .ok (c.mixInto s.params s.out, c.rendered s.params ma k) := by
  have hsounds : ¬ c.silent = true := mt Channel.silent_iff.1 hs
  have hframe : ¬ c.stageEmpty k = true := mt Channel.stageEmpty_iff.1 he
  rw [State.renderOrSkip, if_neg hsounds, State.wavegenFrame, hk]
  simp only [if_neg hframe, if_pos (State.instrValid_iff.2 hi)]
  cases s.modamp c.instr <;> rfl

/-- At the head of `ChannelFrame` the step is that head's (R181). -/
theorem State.AtHead.step_eq {s : State} {c : Channel} (hx : s.AtHead c) : step s = s.channelHead := by
  obtain ⟨hl, hr, hp, -⟩ := hx
  have hb : s.busy = true := (State.busy_iff s).2 ⟨hr, by simp [hp]⟩
  rw [step_of_clear hl, if_pos hb, hp]

/-- The step of a channel that sounds (R181). -/
theorem State.AtHead.step_of_stage {s : State} {c : Channel} {k : Fin 4} {ma : Word} (hx : s.AtHead c)
    (hg : 1 ≤ c.nfl.toInt) (hs : c.cstep ≠ 0#16) (hk : c.stage = some k) (he : c.efr.get k ≠ 0#32)
    (hi : c.instr.toNat < s.params.ninstr) (hm : s.modamp c.instr = some ma) :
    step s = .next { s.withChannel (c.sounded s.params ma k) with
      out := c.mixInto s.params s.out,
      phase := if c.nfl.toInt = 1 then .execute true else .chanDone } := by
  have hlast : afterFrame (c.sounded s.params ma k) = if c.nfl.toInt = 1 then .execute true else .chanDone := by
    rw [afterFrame, Channel.sounded_nfl_toInt _ _ _ hg]
    exact if_congr (by omega) rfl rfl
  rw [hx.step_eq, State.channelHead, State.onChan_of_chan hx.chan, if_pos (Channel.generating_iff.2 hg),
    State.renderOrSkip_of_stage hs hk he hi, hm, ← hlast]
  rfl

/-- Settles O34: the step, and the sounded channel register by register. -/
theorem soundingFrame : Obligations.SoundingFrame := by
  rintro s c k ma _ _ hx hg hs hk he hi hm rfl rfl
  refine ⟨c.sounded s.params ma k, hx.step_of_stage hg hs hk he hi hm, Channel.sounded_nfl_toInt _ _ _ hg,
    c.sounded_cph _ _ _, c.sounded_mph _ _ _, ?_, fun j hj => ?_, fun hleft => ?_, ?_, c.sounded_frame _ _ _⟩
  · have hcount := toNat_count_sub_one he
    rw [Channel.sounded_efr, get_set_same]
    omega
  · rw [Channel.sounded_efr, get_set_other _ _ hj]
  · have htick := Channel.sounded_of_frame_left s.params ma hleft
    exact ⟨htick.ecur, htick.ampL, htick.ampR⟩
  · rintro hlast _ rfl
    have htick := Channel.sounded_of_last_frame s.params ma hlast
    rw [Channel.sounded_efr]
    exact ⟨htick.ecur, htick.ampL, htick.ampR⟩

/-! ### Where a step stops (R151, R200) -/

/-- A channel past its last stage has no frames ahead. -/
theorem Channel.framesAhead_of_done {c : Channel} (h : c.stage = none) : c.framesAhead = 0 := by
  simp [Channel.framesAhead, Channel.stageFrames, Channel.stage_eq_none.1 h]

/-- A counted note that sounds is at a stage (R46, I3). -/
theorem Channel.Counted.exists_stage {c : Channel} {ninstr : Nat} (h : c.Counted ninstr) (hg : 1 ≤ c.nfl.toInt)
    (hs : c.cstep ≠ 0#16) : ∃ k, c.stage = some k := by
  cases hk : c.stage with
  | some k => exact ⟨k, rfl⟩
  | none =>
    have hcount := h.counted hg hs
    rw [Channel.framesAhead_of_done hk] at hcount
    omega

/-- A channel's part of a frame stops only at an unloaded `MODAMP` where its note is counted and its cursor is at no empty
stage: the precondition of R148 holds. -/
theorem State.renderOrSkip_error {s : State} {c : Channel} {f : Fault} (hc : c.Counted s.params.ninstr)
    (hcur : c.CursorOk) (hg : 1 ≤ c.nfl.toInt) (h : s.renderOrSkip c = .error f) : f = .unloadedTuneWord := by
  by_cases hs : c.cstep = 0#16
  · rw [State.renderOrSkip, if_pos (Channel.silent_iff.2 hs)] at h
    cases h
  · obtain ⟨k, hk⟩ := hc.exists_stage hg hs
    rw [State.renderOrSkip_of_stage hs hk (hcur k hk) (hc.tabled hg)] at h
    cases hm : s.modamp c.instr with
    | some ma => rw [hm] at h; cases h
    | none => rw [hm] at h; cases h; rfl

/-- Where the head of `ChannelFrame` stops: at no channel, or where the frame of one that generates stops (R181). -/
theorem State.channelHead_fault {s : State} {f : Fault} (h : s.channelHead = .fault f) :
    s.chan = none ∨ ∃ c, s.chan = some c ∧ 1 ≤ c.nfl.toInt ∧ s.renderOrSkip c = .error f := by
  rcases State.onChan_fault h with ⟨hn, -⟩ | ⟨c, hc, h⟩
  · exact .inl hn
  · split at h
    · rename_i hg
      split at h
      · rename_i hr
        cases h
        exact .inr ⟨c, hc, Channel.generating_iff.1 hg, hr⟩
      · cases h
    · cases h

/-- Where a command of `Execute` stops: at no channel, or at an unloaded word (R168). -/
theorem State.executeOne_fault {s : State} {f : Fault} (h : s.executeOne = .fault f) :
    s.chan = none ∨ f = .unloadedTuneWord := by
  rcases State.onChan_fault h with ⟨hn, -⟩ | ⟨c, -, h⟩
  · exact .inl hn
  · split at h
    · exact (exec_fault h).imp_left And.left
    · cases h
    · cases h
      exact .inr rfl

/-- Inside `EngineFrame` of a sound state the engine is at a channel. -/
theorem State.Sound.chan_ne_none {s : State} (h : s.Sound) (hb : s.busy = true) : s.chan ≠ none := fun hn =>
  absurd (List.getElem?_eq_none_iff.1 hn) (Nat.not_le.2 (h.engine hb))

/-- Settles O46: the engine is at a channel, I2 and I3 give the frame its precondition, and a command stops at no other
place. -/
theorem onlyUnloadedWordsStop : Obligations.OnlyUnloadedWordsStop := by
  intro s f hs hn h
  obtain ⟨hb, ⟨-, h⟩ | ⟨-, h⟩⟩ := step_fault h
  · obtain hnone | ⟨c, hc, hg, hr⟩ := State.channelHead_fault h
    · exact absurd hnone (hs.chan_ne_none hb)
    · have hmem := State.chan_mem hc
      exact State.renderOrSkip_error (hn.counted_mem c hmem) (hs.cursor c hmem) hg hr
  · exact (State.executeOne_fault h).resolve_left (hs.chan_ne_none hb)

end Sys2Proof.Machine
end

section
/-! What each command leaves unchanged (43_commands.md R161 to R168; 60_exceptions.md R204), and with it what one step of the
engine can touch (44_frame_engine.md R181, R188). -/

namespace Sys2Proof.Machine

/-! ### The updates of one command -/

/-- Writing the engine's channel touches that channel alone. -/
theorem State.setChan_outsideSame (s : State) (c : Channel) : s.OutsideSame (s.setChan c) where
  memory _ := rfl
  params := rfl
  out := rfl
  cur := rfl
  port := rfl
  resetLine := rfl
  statusLine := rfl
  sent := rfl
  count := by simp
  others j hj := by simp [List.getElem?_set_ne hj.symm]

/-- Fault entry touches no channel and nothing the host sees but `RUN` and the record (R204). -/
theorem State.raise_outsideSame (s : State) (cause : FaultCause) (pc0 : Word) : s.OutsideSame (s.raise cause pc0) where
  memory _ := by rw [State.raise_mem]
  params := s.raise_params cause pc0
  out := s.raise_out cause pc0
  cur := s.raise_cur cause pc0
  port := s.raise_port cause pc0
  resetLine := s.raise_resetLine cause pc0
  statusLine := s.raise_statusLine cause pc0
  sent := s.raise_sent cause pc0
  count := by rw [State.raise_ch]
  others _ _ := by rw [State.raise_ch]

/-- Fault entry is what the statements call a fault taken (R204). -/
theorem State.raise_faultTaken (s : State) (cause : FaultCause) (pc0 : Word) : s.FaultTaken (s.raise cause pc0) :=
  ⟨s.raise_ch cause pc0, s.raise_phase cause pc0, s.raise_fresh cause pc0⟩

/-- A note begun touches the engine's channel, the engine's place and the count of free values alone (R164). -/
theorem State.beginNote_outsideSame (s : State) (c : Channel) (o : BeatOperands) (len : Nat) :
    s.OutsideSame (s.beginNote c o len) :=
  { s.setChan_outsideSame (c.startNote o len s.fresh).advance with }

/-- The execute phase has ended where the engine goes on as `afterExecute` says (R168, R181). -/
theorem State.executeEnded_of_phase {s t : State} (h : t.phase = afterExecute s.phase) : s.ExecuteEnded t where
  eager hp := by rw [h, hp]; rfl
  entry hp := by rw [h, hp]; rfl
  outside hne := by
    rw [h]
    cases hp : s.phase with
    | execute e => exact absurd hp (hne e)
    | _ => rfl

/-- The channel written is the one whose registers are kept, where the registers named are the only ones that differ. -/
theorem State.channelSame_of_chan {s t : State} {c c' : Channel} {keep : Channel → Channel → Channel}
    (hc : s.chan = some c) (ht : t.ch = s.ch.set s.cur c') (hk : c' = keep c c') : s.ChannelSame t keep :=
  ⟨c, c', hc, by rw [ht, List.getElem?_set_self (State.chan_lt hc)], hk⟩

/-- Everything that `NOTE`, `SETI`, `JUMP`, `REPT` and `PAN` leave alone where they take no fault. -/
theorem State.setChan_frame {s : State} {c c' : Channel} {keep : Channel → Channel → Channel} (hc : s.chan = some c)
    (hk : c' = keep c c') :
    s.StatusSame (s.setChan c') ∧ (s.setChan c').phase = s.phase ∧ (s.setChan c').fresh = s.fresh ∧
      s.ChannelSame (s.setChan c') keep :=
  ⟨⟨rfl, rfl, rfl, rfl⟩, rfl, rfl, State.channelSame_of_chan hc rfl hk⟩

/-! ### The commands -/

/-- Settles O19: each of the three writes the engine's channel, and there the registers it names. -/
theorem controlAndPanFrame : Obligations.ControlAndPanFrame := by
  refine fun s t => ⟨fun target h => ?_, fun count h => ?_, fun offset h => ?_⟩
  · obtain ⟨c, hc, rfl⟩ := execJump_next h
    exact ⟨s.setChan_outsideSame _, State.setChan_frame hc rfl⟩
  · obtain ⟨c, hc, rfl⟩ := execRept_next h
    exact ⟨s.setChan_outsideSame _, State.setChan_frame hc (c.repeatStep_frame count)⟩
  · obtain ⟨c, hc, rfl⟩ := execPan_next h
    exact ⟨s.setChan_outsideSame _, State.setChan_frame hc rfl⟩

/-- Settles O20: both write the engine's channel, or take a fault. -/
theorem noteAndSetiFrame : Obligations.NoteAndSetiFrame := by
  refine fun s t => ⟨fun pitch h => ?_, fun index h => ?_⟩
  · obtain ⟨c, hc, ⟨cs, ms, rfl⟩ | ⟨cause, rfl⟩⟩ := execNote_next h
    · exact ⟨s.setChan_outsideSame _, .inl (State.setChan_frame hc rfl)⟩
    · exact ⟨s.raise_outsideSame _ _, .inr (s.raise_faultTaken _ _)⟩
  · obtain ⟨c, hc, ⟨a, b, -, rfl⟩ | ⟨cause, rfl⟩⟩ := execSeti_next h
    · exact ⟨s.setChan_outsideSame _, .inl (State.setChan_frame hc rfl)⟩
    · exact ⟨s.raise_outsideSame _ _, .inr (s.raise_faultTaken _ _)⟩

/-- A note begun changes the note's registers alone: the frames left, the amplitudes, the envelope and the phases. -/
theorem Channel.startNote_frame (o : BeatOperands) (len n : Nat) (c : Channel) :
    c.startNote o len n = { c with
      nfl := (c.startNote o len n).nfl, ampL := (c.startNote o len n).ampL, ampR := (c.startNote o len n).ampR,
      efr := (c.startNote o len n).efr, edl := (c.startNote o len n).edl, edr := (c.startNote o len n).edr,
      ecur := (c.startNote o len n).ecur, cph := (c.startNote o len n).cph, mph := (c.startNote o len n).mph } := by
  rw [Channel.startNote, Channel.settlePhases_frame, Channel.skipZeroStages_frame]
  rfl

/-- Settles O21: the note begun, or the fault of the index. -/
theorem beatFrame : Obligations.BeatFrame := by
  intro s t count h
  obtain ⟨c, hc, ⟨o, -, -, rfl⟩ | ⟨cause, rfl⟩⟩ := execBeat_next h
  · refine ⟨s.beginNote_outsideSame _ _ _, .inl ⟨⟨rfl, rfl, rfl, rfl⟩, State.executeEnded_of_phase rfl,
      State.channelSame_of_chan hc rfl ?_⟩⟩
    simp only [Channel.advance_pc, Channel.startNote_pc]
    exact congrArg Channel.advance (c.startNote_frame o (o.noteFrames count) s.fresh)
  · exact ⟨s.raise_outsideSame _ _, .inr (s.raise_faultTaken _ _)⟩

/-- Every command touches the engine's channel, the run state, the fault record and the engine's place at most (R161). -/
theorem exec_outsideSame {i : Instr} {s t : State} (h : exec i s = .next t) : s.OutsideSame t := by
  cases i with
  | note pitch => exact ((noteAndSetiFrame s t).1 pitch h).1
  | seti index => exact ((noteAndSetiFrame s t).2 index h).1
  | beat count => exact (beatFrame s t count h).1
  | jump target => exact ((controlAndPanFrame s t).1 target h).1
  | rept count => exact ((controlAndPanFrame s t).2.1 count h).1
  | pan offset => exact ((controlAndPanFrame s t).2.2 offset h).1

/-! ### One step inside `EngineFrame` -/

/-- A step of an execute phase touches what its command touches, or takes the fetch's fault (R168). -/
theorem State.executeOne_outsideSame {s t : State} (h : s.executeOne = .next t) : s.OutsideSame t := by
  obtain ⟨c, -, ⟨i, -, h⟩ | ⟨cause, -, rfl⟩⟩ := State.executeOne_next h
  · exact exec_outsideSame h
  · exact s.raise_outsideSame cause c.pc

/-- The head of `ChannelFrame` touches the engine's channel, its place and `OUT` alone (R181). -/
theorem State.channelHead_outsideSame {s t : State} (h : s.channelHead = .next t) :
    s.OutsideSame { t with out := s.out } := by
  obtain ⟨c, -, ⟨-, rfl⟩ | ⟨-, o, c1, -, rfl⟩⟩ := State.channelHead_next h
  · exact ⟨fun _ => rfl, rfl, rfl, rfl, rfl, rfl, rfl, rfl, rfl, fun _ _ => rfl⟩
  · exact { s.setChan_outsideSame c1.countFrame with }

/-- The head of `ChannelFrame` leaves `OUT` where the channel is silent or has no frame left (R181, R188). -/
theorem State.channelHead_out {s t : State} {c : Channel} (h : s.channelHead = .next t) (hc : s.chan = some c)
    (hq : c.cstep = 0#16 ∨ c.nfl.toInt ≤ 0) : t.out = s.out := by
  obtain ⟨d, hd, hcase⟩ := State.channelHead_next h
  obtain rfl := Option.some.inj (hc.symm.trans hd)
  obtain ⟨-, rfl⟩ | ⟨hg, o, c1, hr, rfl⟩ := hcase
  · rfl
  · obtain ⟨-, rfl, -⟩ | ⟨hs, -⟩ := State.renderOrSkip_ok hr
    · rfl
    · have hframe := Channel.generating_iff.1 hg
      have hsound : c.cstep ≠ 0#16 := mt Channel.silent_iff.2 (Bool.eq_false_iff.1 hs)
      exact absurd hq (not_or.2 ⟨hsound, Int.not_le.2 hframe⟩)

@[simp] theorem State.nextChannel_port (s : State) : s.nextChannel.port = s.port := by
  unfold State.nextChannel; split <;> rfl

@[simp] theorem State.nextChannel_out (s : State) : s.nextChannel.out = s.out := by
  unfold State.nextChannel; split <;> rfl

/-- Settles O43: the step is the head of a channel, a command, or the move to the next channel. -/
theorem channelsAreIsolated : Obligations.ChannelsAreIsolated := by
  intro s t hl hb h
  obtain ⟨hmem, hparams⟩ := tuneStoreLockedWhileRunning s t (by simp [((State.busy_iff s).1 hb).1]) h
  rw [step_of_clear hl, if_pos hb] at h
  cases hp : s.phase with
  | idle => exact absurd hp ((State.busy_iff s).1 hb).2
  | head =>
    rw [hp] at h
    have hsame := State.channelHead_outsideSame h
    exact ⟨hsame.count, hsame.others, hsame.port, hmem, hparams, fun hne => absurd rfl hne,
      fun c hc => State.channelHead_out h hc, fun _ => ⟨hsame.sent, hsame.cur⟩⟩
  | execute e =>
    rw [hp] at h
    have hsame := State.executeOne_outsideSame h
    exact ⟨hsame.count, hsame.others, hsame.port, hmem, hparams, fun _ => hsame.out, fun _ _ _ => hsame.out,
      fun _ => ⟨hsame.sent, hsame.cur⟩⟩
  | chanDone =>
    rw [hp] at h
    cases h
    exact ⟨by rw [State.nextChannel_ch], fun _ _ => by rw [State.nextChannel_ch], s.nextChannel_port, hmem, hparams,
      fun _ => s.nextChannel_out, fun _ _ _ => s.nextChannel_out, fun hne => absurd rfl hne⟩

end Sys2Proof.Machine
end

section
/-! The step of an execute phase as the command it runs (43_commands.md R160, R168), a placed word among them
(assumption 19). -/

namespace Sys2Proof.Machine

/-! ### The step of a loaded command -/

/-- A step whose fetch finds a command is that command (R168). -/
theorem State.Executing.step_of_fetch_command {s : State} {c : Channel} {i : Instr} (hx : s.Executing c)
    (hf : s.fetch c.pc = .command i) : step s = exec i s := by
  have hc : s.chan = some c := hx.chan
  rw [hx.step_eq, State.executeOne, State.onChan_of_chan hc, hf]

/-- A step whose cursor is at a loaded command word is that command (R160, R168). -/
theorem State.Executing.step_of_codeWord {s : State} {c : Channel} {w : Word} {i : Instr} (hx : s.Executing c)
    (hpc : c.pc.toNat < s.codeLen s.cur) (hw : s.codeWord s.cur c.pc = some w) (hd : decodeWord w = some i) :
    step s = exec i s :=
  hx.step_of_fetch_command (by rw [State.fetch_loaded hpc hw, hd, Option.elim_some])

/-- Two loaded bytes are a loaded word, the low one first (R65). -/
theorem Memory.readWord_of_bytes {m : Memory} {a : Nat} {lo hi : Byte} (hlo : m.read a = some lo)
    (hhi : m.read (a + 1) = some hi) : m.readWord a = some (wordOfBytes lo hi) := by
  rw [Memory.readWord, hlo, hhi]

/-- Settles O6: the two bytes are the loaded word the step fetches. -/
theorem stepRunsDecodedInstruction : Obligations.StepRunsDecodedInstruction :=
  fun _ _ _ _ _ hx hpc hlo hhi hd => hx.step_of_codeWord hpc (Memory.readWord_of_bytes hlo hhi) hd

/-! ### A placed word (assumption 19) -/

/-- The lengths grown for entry `c` have it at `n` at least. -/
theorem le_getD_growLen (l : List Nat) (c n : Nat) : n ≤ (growLen l c n).getD c 0 := by
  induction l, c, n using growLen.induct with
  | case1 n => exact le_rfl
  | case2 c n ih => exact ih
  | case3 x xs n => exact Nat.le_max_right x n
  | case4 x xs c n ih => exact ih

/-- The fetch channel is one of the fetch channels. -/
theorem State.exists_fetchChannel (s : State) : ∃ u, s.fetchChannels[s.fetchChannel]? = some u := by
  have hlt : s.fetchChannel < s.fetchChannels.length := by
    unfold State.fetchChannel State.fetchChannels
    split
    · rename_i hcur
      rwa [if_neg (List.ne_nil_of_length_pos (Nat.zero_lt_of_lt hcur))]
    · split
      · exact Nat.one_pos
      · exact List.length_pos_of_ne_nil ‹_›
  exact ⟨_, List.getElem?_eq_getElem hlt⟩

/-- A placed word leaves the engine executing at its fetch channel. -/
theorem State.withFetchWord_executing {s : State} {u : Channel} (hu : s.fetchChannels[s.fetchChannel]? = some u)
    (nbits w : Nat) : (s.withFetchWord nbits w).Executing u where
  lines := ⟨rfl, rfl⟩
  running := rfl
  phase := by
    change ∃ eager, executePhase s.phase = .execute eager
    cases s.phase with
    | execute e => exact ⟨e, rfl⟩
    | _ => exact ⟨false, rfl⟩
  chan := hu

/-- A placed word lies inside the store of its channel. -/
theorem State.withFetchWord_pc_lt {s : State} {u : Channel} (hu : s.fetchChannels[s.fetchChannel]? = some u)
    (nbits w : Nat) : u.pc.toNat < (s.withFetchWord nbits w).codeLen (s.withFetchWord nbits w).cur := by
  have hcursor : cursorOf s.fetchChannels s.fetchChannel = u.pc.toNat := by rw [cursorOf, hu]
  have hgrown := le_getD_growLen s.params.codeLen s.fetchChannel (cursorOf s.fetchChannels s.fetchChannel + 1)
  rw [hcursor] at hgrown
  change u.pc.toNat < (growLen s.params.codeLen s.fetchChannel _).getD s.fetchChannel 0
  rw [hcursor]
  exact hgrown

/-- A placed word is the word at the cursor. -/
theorem State.withFetchWord_codeWord {s : State} {u : Channel} (hu : s.fetchChannels[s.fetchChannel]? = some u)
    (nbits w : Nat) :
    (s.withFetchWord nbits w).codeWord (s.withFetchWord nbits w).cur u.pc = some (tableWord nbits w) := by
  have hcursor : cursorOf s.fetchChannels s.fetchChannel = u.pc.toNat := by rw [cursorOf, hu]
  change (s.mem.writeWord (codeAddr s.fetchChannel (cursorOf s.fetchChannels s.fetchChannel)) _).readWord
    (codeAddr s.fetchChannel u.pc.toNat) = _
  rw [hcursor, Memory.readWord_writeWord_same]

/-- A command word has the 16 bits of the opcode table. -/
@[simp] theorem tableWord_toNat (w : Word) : tableWord 16 w.toNat = w := by
  rw [tableWord, Nat.mod_eq_of_lt w.isLt, BitVec.ofNat_toNat, BitVec.setWidth_eq]

/-- Settles O8: the placed word is inside the store and at the cursor of an execute phase. -/
theorem placedWordRunsNext : Obligations.PlacedWordRunsNext := by
  intro s w i hd
  obtain ⟨u, hu⟩ := s.exists_fetchChannel
  exact (State.withFetchWord_executing hu 16 w.toNat).step_of_codeWord (State.withFetchWord_pc_lt hu 16 w.toNat)
    (State.withFetchWord_codeWord hu 16 w.toNat) (by rwa [tableWord_toNat])

end Sys2Proof.Machine
end

section
/-! What `JUMP`, `REPT` and `PAN` do (43_commands.md R165 to R167), and the repeat idiom of the first two (R169). -/

namespace Sys2Proof.Machine

/-! ### `JUMP` and `REPT` (R165, R166) -/

/-- `JUMP` where there is a channel (R165). -/
theorem exec_jump {s : State} {c : Channel} (target : BitVec 12) (hc : s.chan = some c) :
    exec (.jump target) s = .next (s.withChannel { c with pc := BitVec.ofNat 16 target.toNat }) := by
  change s.onChan _ = _
  rw [State.onChan_of_chan hc, targetWord, ← BitVec.ofNat_toNat]
  rfl

/-- `REPT` where there is a channel (R166). -/
theorem exec_rept {s : State} {c : Channel} (count : BitVec 12) (hc : s.chan = some c) :
    exec (.rept count) s = .next (s.withChannel (c.repeatStep count)) := by
  change s.onChan _ = _
  rw [State.onChan_of_chan hc]
  rfl

/-- Settles O15. -/
theorem jumpEffect : Obligations.JumpEffect := fun target _ _ hc => exec_jump target hc

/-- `REPT` with no loop in progress loads the counter (R166). -/
theorem Channel.repeatStep_of_zero {c : Channel} (count : BitVec 12) (h : c.loop = 0#12) :
    c.repeatStep count = { c with loop := count, pc := c.pc + 1#16 } := by
  obtain ⟨-, e⟩ | ⟨h1, -⟩ | ⟨h0, -⟩ := c.repeatStep_cases count
  · exact e
  · rw [h] at h1; cases h1
  · exact absurd h h0

/-- `REPT` at the end of its loop skips the next command (R166). -/
theorem Channel.repeatStep_of_one {c : Channel} (count : BitVec 12) (h : c.loop = 1#12) :
    c.repeatStep count = { c with loop := 0#12, pc := c.pc + 2#16 } := by
  obtain ⟨h0, -⟩ | ⟨-, e⟩ | ⟨-, h1, -⟩ := c.repeatStep_cases count
  · rw [h] at h0; cases h0
  · exact e
  · exact absurd h h1

/-- `REPT` inside its loop counts down (R166). -/
theorem Channel.repeatStep_of_two_le {c : Channel} (count : BitVec 12) (h : 2 ≤ c.loop.toNat) :
    c.repeatStep count = { c with loop := BitVec.ofNat 12 (c.loop.toNat - 1), pc := c.pc + 1#16 } := by
  have hdown : c.loop - 1#12 = BitVec.ofNat 12 (c.loop.toNat - 1) := by bv_omega
  obtain ⟨h0, -⟩ | ⟨h1, -⟩ | ⟨-, -, e⟩ := c.repeatStep_cases count
  · rw [h0] at h; simp at h
  · rw [h1] at h; simp at h
  · rw [e, hdown]

/-- Settles O16: the three cases of the counter. -/
theorem reptEffect : Obligations.ReptEffect := fun count _ _ hc =>
  ⟨fun h => by rw [exec_rept count hc, Channel.repeatStep_of_zero count h],
    fun h => by rw [exec_rept count hc, Channel.repeatStep_of_one count h],
    fun h => by rw [exec_rept count hc, Channel.repeatStep_of_two_le count h]⟩

/-! ### The repeat idiom (R169) -/

/-- A run goes on from the state after its first step. -/
theorem run_succ_of_next {M : Host.Core} {s t : M.State} (n : Nat) (h : M.step s = .next t) :
    M.run (n + 1) s = M.run n t := by
  rw [Host.Core.run, h]

/-- So does a run of the block. -/
theorem core_run_succ {s t : State} (n : Nat) (h : step s = .next t) : core.run (n + 1) s = core.run n t :=
  run_succ_of_next (M := core) n h

/-- In an execute phase the engine's channel may be rewritten: the phase goes on. -/
theorem State.Executing.withChannel {s : State} {c : Channel} (hx : s.Executing c) (c' : Channel) :
    (s.withChannel c').Executing c' where
  lines := ⟨hx.lines.reset, hx.lines.status⟩
  running := hx.running
  phase := hx.phase
  chan := State.chan_setChan hx.chan c'

/-- The channel rewritten last is the one that stays. -/
@[simp] theorem State.withChannel_withChannel (s : State) (c c' : Channel) :
    (s.withChannel c).withChannel c' = s.withChannel c' := by
  simp [State.withChannel]

/-- The state stands in an execute phase at a `REPT count` with `JUMP body` after it, both inside the store (R169). -/
structure State.AtRepeat (s : State) (c : Channel) (count body : BitVec 12) : Prop where
  executing : s.Executing c
  inside : c.pc.toNat + 1 < s.codeLen s.cur
  rept : s.codeWord s.cur c.pc = some (encode (.rept count))
  jump : s.codeWord s.cur (c.pc + 1#16) = some (encode (.jump body))

/-- The step at a `REPT`. -/
theorem State.AtRepeat.step_eq {s : State} {c : Channel} {count body : BitVec 12} (h : s.AtRepeat c count body) :
    step s = .next (s.withChannel (c.repeatStep count)) := by
  have hpc := h.inside
  rw [h.executing.step_of_codeWord (by omega) h.rept (decodeWord_encode _), exec_rept count h.executing.chan]

/-- Where the `REPT` goes on to the next command, that is the `JUMP` to the body: two steps in all. -/
theorem State.AtRepeat.run_two {s : State} {c : Channel} {count body loop : BitVec 12} (h : s.AtRepeat c count body)
    (hrept : c.repeatStep count = { c with loop := loop, pc := c.pc + 1#16 }) :
    core.run 2 s = .next (s.withChannel { c with loop := loop, pc := BitVec.ofNat 16 body.toNat }) := by
  have hpc := h.inside
  have hx := h.executing.withChannel { c with loop := loop, pc := c.pc + 1#16 }
  have hnext : (c.pc + 1#16).toNat < s.codeLen s.cur := by
    rw [BitVec.toNat_add, BitVec.toNat_ofNat]
    omega
  have hjump : step (s.withChannel { c with loop := loop, pc := c.pc + 1#16 })
      = .next (s.withChannel { c with loop := loop, pc := BitVec.ofNat 16 body.toNat }) := by
    rw [hx.step_of_codeWord hnext h.jump (decodeWord_encode _), exec_jump body hx.chan, State.withChannel_withChannel]
  rw [core_run_succ 1 h.step_eq, hrept, core_run_succ 0 hjump]
  rfl

/-- Where the loop ends the `JUMP` is skipped, in one step. -/
theorem State.AtRepeat.run_one {s : State} {c : Channel} {count body : BitVec 12} (h : s.AtRepeat c count body)
    (hloop : c.loop = 1#12) :
    core.run 1 s = .next (s.withChannel { c with loop := 0#12, pc := c.pc + 2#16 }) := by
  rw [core_run_succ 0 h.step_eq, Channel.repeatStep_of_one count hloop]
  rfl

/-- `LOOP` at visit `j` of `REPT count`, counted from 0: idle at the first, and `count - j + 1` at the later ones. -/
def loopAtVisit (count : BitVec 12) (j : Nat) : BitVec 12 :=
  if j = 0 then 0#12 else BitVec.ofNat 12 (count.toNat - j + 1)

/-- A visit before the last leaves `LOOP` at `count - j` and goes on to the next command. -/
theorem Channel.repeatStep_visit {c : Channel} {count : BitVec 12} {j : Nat} (hj : j < count.toNat)
    (h : c.loop = loopAtVisit count j) :
    c.repeatStep count = { c with loop := BitVec.ofNat 12 (count.toNat - j), pc := c.pc + 1#16 } := by
  have hcount := count.isLt
  cases j with
  | zero =>
    rw [Channel.repeatStep_of_zero count h, Nat.sub_zero, BitVec.ofNat_toNat, BitVec.setWidth_eq]
  | succ j =>
    have hloop : c.loop.toNat = count.toNat - (j + 1) + 1 := by
      rw [h, loopAtVisit, if_neg j.succ_ne_zero, BitVec.toNat_ofNat]
      omega
    rw [Channel.repeatStep_of_two_le count (by omega), hloop, Nat.add_sub_cancel]

/-- The last visit finds `LOOP = 1`. -/
theorem loopAtVisit_last {count : BitVec 12} (h : 1 ≤ count.toNat) : loopAtVisit count count.toNat = 1#12 := by
  rw [loopAtVisit, if_neg (by omega), Nat.sub_self]

/-- Settles O18, by induction on the visits: each finds the `LOOP` that the one before it left. -/
theorem repeatIdiomRunsBodyAgain : Obligations.RepeatIdiomRunsBodyAgain := by
  intro count body pc0 st c hcount hfirst hvisit hkeep
  have at_repeat : ∀ j, j ≤ count.toNat → (st j).AtRepeat (c j) count body := fun j hj => by
    obtain ⟨hx, rfl, hlen, hrept, hjump⟩ := hvisit j hj
    exact ⟨hx, hlen, hrept, hjump⟩
  have run_visit : ∀ j, j < count.toNat → (c j).loop = loopAtVisit count j →
      core.run 2 (st j) = .next ((st j).withChannel { c j with
        loop := BitVec.ofNat 12 (count.toNat - j), pc := BitVec.ofNat 16 body.toNat }) :=
    fun j hj hloop => (at_repeat j hj.le).run_two (Channel.repeatStep_visit hj hloop)
  have loop_at : ∀ j, j ≤ count.toNat → (c j).loop = loopAtVisit count j := by
    intro j
    induction j with
    | zero => exact fun _ => hfirst
    | succ j ih =>
      intro hj
      have hchan := State.chan_setChan (at_repeat j (by omega)).executing.chan
      have hdown : count.toNat - (j + 1) + 1 = count.toNat - j := by omega
      rw [hkeep j hj _ _ (run_visit j hj (ih (by omega))) (hchan _), loopAtVisit, if_neg j.succ_ne_zero, hdown]
  refine ⟨fun j hj => run_visit j hj (loop_at j hj.le), ?_⟩
  obtain ⟨-, hpc, -⟩ := hvisit count.toNat le_rfl
  rw [(at_repeat _ le_rfl).run_one ((loop_at _ le_rfl).trans (loopAtVisit_last hcount)), hpc]

/-! ### `PAN` (R167) -/

/-- `PAN` where there is a channel (R167). -/
theorem exec_pan {s : State} {c : Channel} (offset : BitVec 8) (hc : s.chan = some c) :
    exec (.pan offset) s = .next (s.withChannel
      (c.setPan (BitVec.ofInt 9 (panLeft offset.toInt)) (BitVec.ofInt 9 (panRight offset.toInt))).advance) := by
  change s.onChan _ = _
  rw [State.onChan_of_chan hc]
  rfl

/-- Settles O17: both values fit the nine-bit registers. -/
theorem panEffect : Obligations.PanEffect := by
  intro offset s c hc
  have hlo : -128 ≤ offset.toInt := offset.le_toInt
  have hhi : offset.toInt < 128 := offset.toInt_lt
  refine ⟨_, exec_pan offset hc, fun h => ?_, fun h => ?_, rfl⟩
  · have hL : panLeft offset.toInt = 256 := if_pos h
    have hR : panRight offset.toInt = 256 + offset.toInt * 2 := if_pos h
    simp only [Channel.advance_panL, Channel.advance_panR, Channel.setPan_panL, Channel.setPan_panR, hL, hR]
    rw [toNat_ofInt_pan (by omega) (by omega), toNat_ofInt_pan (by omega) (by omega)]
    omega
  · have hL : panLeft offset.toInt = 256 - offset.toInt * 2 - 2 := if_neg (Int.not_le.2 h)
    have hR : panRight offset.toInt = 256 := if_neg (Int.not_le.2 h)
    simp only [Channel.advance_panL, Channel.advance_panR, Channel.setPan_panL, Channel.setPan_panR, hL, hR]
    rw [toNat_ofInt_pan (by omega) (by omega), toNat_ofInt_pan (by omega) (by omega)]
    omega

end Sys2Proof.Machine
end

section
/-! What `NOTE` and `SETI` do (43_commands.md R162, R163), form by form. -/

namespace Sys2Proof.Machine

/-! ### The index check (R62, R203) -/

/-- While RUNNING, a command whose instrument index is outside the table faults, whatever it would go on with. -/
theorem State.indexCheck_fails {s : State} {i : BitVec 12} (k : Out) (pc0 : Word) (hi : s.params.ninstr ≤ i.toNat)
    (hr : s.run = .running) :
    (if s.instrValid i then k else .next (s.raise .instrRange pc0)) = .next (s.faultedBy .instrRange pc0) := by
  rw [if_neg (mt State.instrValid_iff.1 (Nat.not_lt.2 hi)), State.raise_running hr]

/-! ### `NOTE` (R162) -/

/-- A pitch above 107 silences both steps. -/
theorem execNote_silence {s : State} {c : Channel} {pitch : BitVec 8} (hc : s.chan = some c)
    (hp : 107 < pitch.toNat) :
    exec (.note pitch) s = .next (s.withChannel (c.setSteps 0#16 0#16).advance) := by
  have hhigh : maxPitch < pitchValue pitch := hp
  change s.onChan _ = _
  rw [State.onChan_of_chan hc, if_pos hhigh]
  rfl

/-- A pitch up to 107 of an instrument outside the table faults (R203). -/
theorem execNote_instrRange {s : State} {c : Channel} {pitch : BitVec 8} (hc : s.chan = some c)
    (hp : pitch.toNat ≤ 107) (hi : s.params.ninstr ≤ c.instr.toNat) (hr : s.run = .running) :
    exec (.note pitch) s = .next (s.faultedBy .instrRange c.pc) := by
  have hlow : ¬ maxPitch < pitchValue pitch := Nat.not_lt.2 hp
  change s.onChan _ = _
  rw [State.onChan_of_chan hc, if_neg hlow, State.indexCheck_fails _ _ hi hr]

/-- `NOTE`'s reads where both words are loaded. -/
theorem State.noteOperands_of_loaded {s : State} {i : BitVec 12} {sr : Long} {w : Word}
    (hsr : s.sampleRate = some sr) (hw : s.instrWord i 7 = some w) :
    s.noteOperands i = some { sampleRate := sr, num := numField w, den := denField w } := by
  rw [State.noteOperands, hsr, hw]

/-- A pitch up to 107 of an instrument in the table: `PitchToSteps`, or its fault. -/
theorem execNote_pitched {s : State} {c : Channel} {pitch : BitVec 8} {sr : Long} {w : Word} (hc : s.chan = some c)
    (hp : pitch.toNat ≤ 107) (hi : c.instr.toNat < s.params.ninstr) (hsr : s.sampleRate = some sr)
    (hw : s.instrWord c.instr 7 = some w) :
    exec (.note pitch) s =
      (pitchToSteps s.params.freqTable sr.toNat (w.toNat / 256) (w.toNat % 256) pitch.toNat).elim
        (.next (s.raise .divideByZero c.pc)) fun steps =>
          .next (s.withChannel (c.setSteps steps.1 steps.2).advance) := by
  have hlow : ¬ maxPitch < pitchValue pitch := Nat.not_lt.2 hp
  change s.onChan _ = _
  rw [State.onChan_of_chan hc, if_neg hlow, if_pos (State.instrValid_iff.2 hi), State.noteOperands_of_loaded hsr hw]
  simp only [reading, toNat_numField, toNat_denField, pitchValue]
  cases pitchToSteps s.params.freqTable sr.toNat (w.toNat / 256) (w.toNat % 256) pitch.toNat <;> rfl

/-- `PitchToSteps` of a pitch up to 107 has no steps where one of its divisors is 0 (R125). -/
theorem pitchToSteps_eq_none {table : Vector Long 12} {sr num den pitch : Nat} (hp : pitch ≤ 107)
    (h : den = 0 ∨ sr = 0) : pitchToSteps table sr num den pitch = none := by
  have hlow : ¬ maxPitch < pitch := Nat.not_lt.2 hp
  rw [pitchToSteps, if_neg hlow, if_pos h]

/-- The two steps of a pitch up to 107: the carrier's base and the ratio of it, each divided by the rate (R125). -/
theorem pitchToSteps_eq_some {table : Vector Long 12} {sr num den pitch : Nat} (hp : pitch ≤ 107) (hden : den ≠ 0)
    (hsr : sr ≠ 0) :
    pitchToSteps table sr num den pitch = some (wrapU16 (roundDiv (carrierBase table pitch) sr),
      wrapU16 (roundDiv (modBase (carrierBase table pitch) num den) sr)) := by
  have hlow : ¬ maxPitch < pitch := Nat.not_lt.2 hp
  rw [pitchToSteps, if_neg hlow, if_neg (not_or.2 ⟨hden, hsr⟩)]

/-- The carrier's base: the note's entry of the table, halved for each octave below the top (R123). -/
theorem carrierBase_eq_div (table : Vector Long 12) {pitch : Nat} (hp : pitch ≤ 107) :
    carrierBase table pitch = (table.toList.getD (pitch % 12) 0#32).toNat / 2 ^ ((107 - pitch) / 12) := by
  rw [carrierBase, tableIndex_eq_mod hp, Nat.shiftRight_eq_div_pow, octaveOf]

/-- The rounding division of natural numbers by R124's formula. -/
theorem roundDiv_natCast (b sr : Nat) :
    roundDiv b sr = ((b : Int) - (((sr + 1) / 2 : Nat) : Int)).tdiv sr + 1 := by
  rw [roundDiv_eq_tdiv _ (by omega)]
  push_cast
  rfl

/-- Settles O11: silence, the index, the divisors, and the two steps by their formulas. -/
theorem noteEffect : Obligations.NoteEffect := by
  refine ⟨rfl, rfl, fun pitch s c hc => ⟨fun hp => execNote_silence hc hp,
    fun hp hi hr => execNote_instrRange hc hp hi hr, fun hp hi sr w hsr hw => ⟨fun hz hr => ?_,
      fun hden hrate base hbase => ?_⟩⟩⟩
  · rw [execNote_pitched hc hp hi hsr hw, pitchToSteps_eq_none hp hz, Option.elim_none, State.raise_running hr]
  · rw [execNote_pitched hc hp hi hsr hw, pitchToSteps_eq_some hp hden hrate, Option.elim_some,
      carrierBase_eq_div _ hp, ← hbase, roundDiv_natCast, roundDiv_natCast]
    rfl

/-! ### `SETI` (R163) -/

/-- An index outside the table faults (R203). -/
theorem execSeti_instrRange {s : State} {c : Channel} {index : BitVec 12} (hc : s.chan = some c)
    (hi : s.params.ninstr ≤ index.toNat) (hr : s.run = .running) :
    exec (.seti index) s = .next (s.faultedBy .instrRange c.pc) := by
  change s.onChan _ = _
  rw [State.onChan_of_chan hc, State.indexCheck_fails _ _ hi hr]

/-- The codes 0 to 4 are the waveforms' (R91). -/
theorem exists_waveformOfCode {code : BitVec 3} (h : code.toNat ≤ 4) :
    ∃ a, waveformOfCode code = some a ∧ waveformCode a = code := by
  revert code
  decide

/-- An index in the table whose two codes are waveforms is latched with them. -/
theorem execSeti_latches {s : State} {c : Channel} {index : BitVec 12} {w : Word} {a b : Waveform}
    (hc : s.chan = some c) (hi : index.toNat < s.params.ninstr) (hw : s.instrWord index 0 = some w)
    (ha : waveformOfCode (carwaveField w) = some a) (hb : waveformOfCode (modwaveField w) = some b) :
    exec (.seti index) s = .next (s.withChannel (c.setInstr index a b).advance) := by
  have hread : s.waveWordOf index = some w := hw
  have hpair : selectWavegen (carwaveField w) (modwaveField w) = some (a, b) := by rw [selectWavegen, ha, hb]
  change s.onChan _ = _
  rw [State.onChan_of_chan hc, if_pos (State.instrValid_iff.2 hi), hread]
  simp only [reading, hpair]
  rfl

/-- Settles O12: the index, the reserved codes, and the pair latched. -/
theorem setiEffect : Obligations.SetiEffect := by
  refine ⟨rfl, fun index s c hc => ⟨fun hi hr => execSeti_instrRange hc hi hr, fun hi w hw =>
    ⟨fun hcode hr => execSeti_reserved hc hr hi hw hcode, fun hcar hmod => ?_⟩⟩⟩
  rw [← toNat_carwaveField] at hcar
  rw [← toNat_modwaveField] at hmod
  obtain ⟨a, ha, hacode⟩ := exists_waveformOfCode hcar
  obtain ⟨b, hb, hbcode⟩ := exists_waveformOfCode hmod
  exact ⟨a, b, by rw [hacode, toNat_carwaveField], by rw [hbcode, toNat_modwaveField],
    execSeti_latches hc hi hw ha hb⟩

end Sys2Proof.Machine
end

section
/-! The note that `BEAT` starts (43_commands.md R164; 41_instrument.md R127, R128): its counts and deltas as numbers, the
leading empty stages passed, the phases settled; for every length, those without a value in `NFL` among them (U11). -/

namespace Sys2Proof.Machine

/-! ### The counts (R127, R35) -/

/-- The four counts of a note of `len` frames, from what attack, decay and release take. -/
theorem BeatOperands.countList_counts {o : BeatOperands} {len fa fd fr : Nat}
    (hfa : fa = min (o.att.toNat * o.sampleRate.toNat / 4096) len)
    (hfd : fd = min (o.dec.toNat * o.sampleRate.toNat / 4096) (len - fa))
    (hfr : fr = min (o.rel.toNat * o.sampleRate.toNat / 4096) (len - fa - fd)) :
    countList (o.counts len) = [fa, fd, len - fa - fd - fr, fr] := by
  have ha : (o.counts len).attack = fa := (stageCounts_attack _ _ _ _ _).trans hfa.symm
  have hd : (o.counts len).decay = fd := by rw [hfd, ← ha]; exact stageCounts_decay _ _ _ _ _
  have hr : (o.counts len).release = fr := by rw [hfr, ← ha, ← hd]; exact stageCounts_release _ _ _ _ _
  have hs : (o.counts len).sustain = len - fa - fd - fr := by rw [← ha, ← hd, ← hr]; rfl
  rw [countList, ha, hd, hs, hr]

/-- No stage of a note is longer than the note. -/
theorem BeatOperands.counts_le (o : BeatOperands) (len : Nat) : ∀ n ∈ countList (o.counts len), n ≤ len := by
  have hsum : (o.counts len).attack + (o.counts len).decay + (o.counts len).sustain + (o.counts len).release = len :=
    stageCounts_sum _ _ _ _ _
  intro n hn
  simp only [countList, List.mem_cons, List.not_mem_nil, or_false] at hn
  omega

/-- Each stage register by the stage's count; register `k` takes free value `n + k` where the count does not fit. -/
theorem stageRegs_get {n m : Nat} {counts : StageCounts} {k : Fin 4} (h : (countList counts)[k.val]? = some m) :
    (stageRegs n counts).get k = stageCountOf (n + k.val) m := by
  fin_cases k <;> cases h <;> rfl

/-- There is a count for each stage. -/
theorem exists_count (counts : StageCounts) (k : Fin 4) : ∃ m, (countList counts)[k.val]? = some m :=
  ⟨_, List.getElem?_eq_getElem (l := countList counts) k.isLt⟩

/-- Counts that fit are the registers' numbers. -/
theorem map_toNat_stageRegs {counts : StageCounts} (n : Nat) (h : ∀ m ∈ countList counts, m < 4294967296) :
    (stageRegs n counts).toList.map BitVec.toNat = countList counts := by
  simp only [countList, List.mem_cons, List.not_mem_nil, or_false, forall_eq_or_imp, forall_eq] at h
  obtain ⟨ha, hd, hs, hr⟩ := h
  simp [stageRegs, countList, toNat_stageCountOf, ha, hd, hs, hr]

/-! ### The deltas (R128) -/

/-- The widest whole step of a lane, whatever the nine pan bits are: 65535 * 511. -/
def stepLimit : Nat := 33488385

/-- A gain of at most 65535 times a pan is within that limit. -/
theorem natAbs_mul_pan_le {g : Int} (pan : BitVec 9) (hg : g.natAbs ≤ 65535) : (g * pan.toNat).natAbs ≤ stepLimit := by
  rw [Int.natAbs_mul, Int.natAbs_natCast]
  exact Nat.mul_le_mul hg (Nat.le_of_lt_succ pan.isLt)

/-- A stage's delta is no larger than its whole step. -/
theorem natAbs_stageDelta_le (total : Int) (n : Nat) : (stageDelta total n).natAbs ≤ total.natAbs := by
  rcases Nat.eq_zero_or_pos n with rfl | hn
  · rw [stageDelta_zero]
  · rw [stageDelta_of_pos total hn, Int.natAbs_tdiv]
    exact Nat.div_le_self _ _

/-- The delta of a whole step within the limit, as its register holds it. -/
theorem toInt_stageDelta {total : Int} (n : Nat) (h : total.natAbs ≤ stepLimit) :
    (toLong (stageDelta total n)).toInt = stageDelta total n := by
  have hle := natAbs_stageDelta_le total n
  unfold stepLimit at h
  apply toInt_toLong
  simp only [fitsS32, Bool.and_eq_true, decide_eq_true_eq]
  omega

/-- The whole steps of a lane are within the limit. -/
theorem wholeSteps_le (peak sus : Word) (pan : BitVec 9) : ∀ t ∈ wholeSteps peak sus pan, t.natAbs ≤ stepLimit := by
  have hpeak := peak.isLt
  have hsus := sus.isLt
  simp only [wholeSteps, List.mem_cons, List.not_mem_nil, or_false, forall_eq_or_imp, forall_eq, ← Int.neg_mul]
  exact ⟨natAbs_mul_pan_le pan (by omega), natAbs_mul_pan_le pan (by omega), Nat.zero_le _,
    natAbs_mul_pan_le pan (by omega)⟩

/-- The sustain's delta is 0 however long it is. -/
theorem stageDelta_total_zero (n : Nat) : stageDelta 0 n = 0 := by
  unfold stageDelta divTrunc
  split
  · exact Int.zero_tdiv _
  · rfl

/-- The deltas of a lane as numbers: each whole step shared out over its stage. -/
theorem map_toInt_laneDeltas (counts : StageCounts) (peak sus : Word) (pan : BitVec 9) :
    (laneDeltas counts peak sus pan).toList.map BitVec.toInt
      = List.zipWith stageDelta (wholeSteps peak sus pan) (countList counts) := by
  have hlimit := wholeSteps_le peak sus pan
  simp only [wholeSteps, List.mem_cons, List.not_mem_nil, or_false, forall_eq_or_imp, forall_eq] at hlimit
  obtain ⟨hattack, hdecay, -, hrelease⟩ := hlimit
  simp [laneDeltas, wholeSteps, countList, toInt_stageDelta _ hattack, toInt_stageDelta _ hdecay,
    toInt_stageDelta _ hrelease, stageDelta_total_zero]

/-- The registers of a lane's deltas are within the limit. -/
theorem laneDeltas_le (counts : StageCounts) (peak sus : Word) (pan : BitVec 9) (k : Fin 4) :
    ((laneDeltas counts peak sus pan).get k).toInt.natAbs ≤ stepLimit := by
  have hget : ((laneDeltas counts peak sus pan).toList.map BitVec.toInt)[k.val]?
      = some ((laneDeltas counts peak sus pan).get k).toInt := by simp [Vector.get_eq_getElem]
  rw [map_toInt_laneDeltas] at hget
  obtain ⟨t, n, ht, -, hdelta⟩ := List.getElem?_zipWith_eq_some.1 hget
  rw [← hdelta]
  exact (natAbs_stageDelta_le t n).trans (wholeSteps_le peak sus pan t (List.mem_of_getElem? ht))

/-! ### The leading empty stages (R141, R164) -/

/-- A lane's amplitude is the sum of its first `k` deltas, and so within `k` whole steps. -/
structure DeltasAdded (deltas : Vector Long 4) (k : Nat) (amp : Long) : Prop where
  sum : amp.toInt = ((deltas.toList.map BitVec.toInt).take k).sum
  bound : amp.toInt.natAbs ≤ k * stepLimit

/-- The next delta added: the sum is exact. -/
theorem DeltasAdded.add {deltas : Vector Long 4} {k : Fin 4} {amp : Long} (h : DeltasAdded deltas k.val amp)
    (hd : (deltas.get k).toInt.natAbs ≤ stepLimit) :
    DeltasAdded deltas (k.val + 1) (addAmplitude amp (deltas.get k)) := by
  obtain ⟨hsum, hbound⟩ := h
  have hk := k.isLt
  unfold stepLimit at hbound hd
  have hexact : (addAmplitude amp (deltas.get k)).toInt = amp.toInt + (deltas.get k).toInt := by
    apply toInt_addAmplitude
    simp only [fitsS32, Bool.and_eq_true, decide_eq_true_eq]
    omega
  have hlen : k.val < (deltas.toList.map BitVec.toInt).length := by simp
  refine ⟨?_, ?_⟩
  · rw [hexact, hsum, List.sum_take_succ _ _ hlen]
    simp [Vector.get_eq_getElem]
  · rw [hexact]
    unfold stepLimit
    omega

/-- `u` is reached from `c` by adding on each lane the deltas of the stages before its cursor. -/
structure Channel.AddsDeltas (c u : Channel) : Prop where
  edl : u.edl = c.edl
  edr : u.edr = c.edr
  ampL : DeltasAdded c.edl u.ecur.val u.ampL
  ampR : DeltasAdded c.edr u.ecur.val u.ampR

/-- At amplitude 0 and the attack stage nothing has been added. -/
theorem Channel.AddsDeltas.refl {c : Channel} (h0 : c.ecur = 0) (hl : c.ampL = 0#32) (hr : c.ampR = 0#32) :
    c.AddsDeltas c := by
  have start : ∀ deltas : Vector Long 4, DeltasAdded deltas (0 : Fin 5).val 0#32 := fun _ => ⟨rfl, Nat.zero_le _⟩
  refine ⟨rfl, rfl, ?_, ?_⟩
  · rw [h0, hl]
    exact start _
  · rw [h0, hr]
    exact start _

/-- One more stage's deltas added. -/
theorem Channel.AddsDeltas.pass {c u : Channel} {k : Fin 4} (h : c.AddsDeltas u) (hk : u.stage = some k)
    (hdl : (c.edl.get k).toInt.natAbs ≤ stepLimit) (hdr : (c.edr.get k).toInt.natAbs ≤ stepLimit) :
    c.AddsDeltas ((u.applyDelta k).passStage k) := by
  obtain ⟨el, er, hL, hR⟩ := h
  rw [Channel.stage_eq_some.1 hk] at hL hR
  refine ⟨el, er, ?_, ?_⟩
  · simpa [el] using hL.add hdl
  · simpa [er] using hR.add hdr

/-- From amplitude 0 at the attack stage, `SkipZeroStages` adds the deltas of the stages it passes. -/
theorem Channel.skipZeroStages_addsDeltas {c : Channel} (h0 : c.ecur = 0) (hl : c.ampL = 0#32) (hr : c.ampR = 0#32)
    (hdl : ∀ k, (c.edl.get k).toInt.natAbs ≤ stepLimit) (hdr : ∀ k, (c.edr.get k).toInt.natAbs ≤ stepLimit) :
    c.AddsDeltas c.skipZeroStages :=
  Channel.skipStages_induct 4 c (.refl h0 hl hr) fun _ k h hk _ => h.pass hk (hdl k) (hdr k)

/-- The number of leading empty stages is the place where the first stage with a frame stands, or the end. -/
theorem leadingEmpty_eq {ns : List Nat} {k : Nat} (hk : k ≤ ns.length) (hbefore : ∀ j, j < k → ns[j]? = some 0)
    (hat : ∀ n, ns[k]? = some n → n ≠ 0) : leadingEmpty ns = k := by
  induction ns generalizing k with
  | nil => exact (Nat.le_zero.1 hk).symm
  | cons n ns ih =>
    cases k with
    | zero => simp [leadingEmpty, hat n rfl]
    | succ k =>
      have hn : n = 0 := Option.some.inj (hbefore 0 k.succ_pos)
      have htail := ih (Nat.le_of_succ_le_succ hk) (fun j hj => hbefore (j + 1) (Nat.succ_lt_succ hj)) hat
      simpa [leadingEmpty, hn] using htail

/-- The deltas of the leading empty stages are their whole steps. -/
theorem take_leadingEmpty_zipWith_stageDelta {ts : List Int} {ns : List Nat} (h : ts.length = ns.length) :
    (List.zipWith stageDelta ts ns).take (leadingEmpty ns) = ts.take (leadingEmpty ns) := by
  induction ns generalizing ts with
  | nil => rfl
  | cons n ns ih =>
    cases ts with
    | nil => cases h
    | cons t ts =>
      cases n with
      | zero =>
        have hnext : leadingEmpty (0 :: ns) = leadingEmpty ns + 1 := rfl
        rw [hnext, List.zipWith_cons_cons, List.take_succ_cons, List.take_succ_cons, stageDelta_zero,
          ih (Nat.succ.inj h)]
      | succ n => rfl

/-! ### The fresh note (R164) -/

/-- The fresh note's phases are reset exactly where both amplitudes are 0. -/
theorem Channel.settlePhases_phases (w : Word) (c : Channel) :
    (c.settlePhases w).cph = (if c.ampL = 0#32 ∧ c.ampR = 0#32 then 0#16 else c.cph) ∧
      (c.settlePhases w).mph = (if c.ampL = 0#32 ∧ c.ampR = 0#32 then w else c.mph) := by
  unfold Channel.settlePhases
  simp only [Channel.ampZero, Bool.and_eq_true, beq_iff_eq]
  split <;> exact ⟨rfl, rfl⟩

/-- `c'` is the channel `c` with a note of `len` frames begun and the cursor at the next command (R164), whatever the
length: the free values are those numbered from `n` on. -/
structure Channel.NoteBegun (o : BeatOperands) (len n : Nat) (c c' : Channel) : Prop where
  nfl : c'.nfl = nflOf n len
  efr : c'.efr = stageRegs (n + 1) (o.counts len)
  edl : c'.edl.toList.map BitVec.toInt
    = List.zipWith stageDelta (wholeSteps o.peak o.sus c.panL) (countList (o.counts len))
  edr : c'.edr.toList.map BitVec.toInt
    = List.zipWith stageDelta (wholeSteps o.peak o.sus c.panR) (countList (o.counts len))
  cursor : c'.CursorOk
  passed : ∀ k : Fin 4, k.val < c'.ecur.val → c'.efr.get k = 0#32
  ampL : DeltasAdded c'.edl c'.ecur.val c'.ampL
  ampR : DeltasAdded c'.edr c'.ecur.val c'.ampR
  cph : c'.cph = if c'.ampL = 0#32 ∧ c'.ampR = 0#32 then 0#16 else c.cph
  mph : c'.mph = if c'.ampL = 0#32 ∧ c'.ampR = 0#32 then o.modph0 else c.mph
  kept : c'.pc = c.pc + 1#16 ∧ c'.instr = c.instr ∧ c'.wselc = c.wselc ∧ c'.wselm = c.wselm ∧
    c'.cstep = c.cstep ∧ c'.mstep = c.mstep ∧ c'.panL = c.panL ∧ c'.panR = c.panR ∧ c'.loop = c.loop

/-- `BEAT` leaves the channel with its note begun: the fresh envelope passes its leading empty stages from amplitude 0, and
then the phases are settled. -/
theorem Channel.startNote_noteBegun (o : BeatOperands) (len n : Nat) (c : Channel) :
    c.NoteBegun o len n (c.startNote o len n).advance := by
  have hadds := Channel.skipZeroStages_addsDeltas (c := c.freshNote o len n) rfl rfl rfl
    (laneDeltas_le _ _ _ _) (laneDeltas_le _ _ _ _)
  have hpassed := (c.freshNote o len n).skipZeroStages_passesEmpty.passed
  obtain ⟨hcph, hmph⟩ := Channel.settlePhases_phases o.modph0 (c.freshNote o len n).skipZeroStages
  exact {
    nfl := by rw [Channel.advance_nfl, Channel.startNote_nfl]
    efr := by rw [Channel.advance_efr, Channel.startNote_efr]
    edl := by rw [Channel.advance_edl, Channel.startNote_edl, map_toInt_laneDeltas]
    edr := by rw [Channel.advance_edr, Channel.startNote_edr, map_toInt_laneDeltas]
    cursor := (c.startNote_cursorOk o len n).congr (Channel.advance_noteSame _).toEnvelopeSame
    passed := fun k hk => by
      rw [Channel.advance_ecur, Channel.startNote_ecur] at hk
      rw [Channel.advance_efr, Channel.startNote_efr]
      exact hpassed k (Nat.zero_le _) hk
    ampL := by simpa using hadds.ampL
    ampR := by simpa using hadds.ampR
    cph := by simpa [Channel.startNote] using hcph
    mph := by simpa [Channel.startNote] using hmph
    kept := by simp }

/-- Where every count fits its register, the cursor is past the leading empty stages. -/
theorem Channel.NoteBegun.ecur_eq_leadingEmpty {o : BeatOperands} {len n : Nat} {c c' : Channel}
    (h : c.NoteBegun o len n c') (hfit : ∀ m ∈ countList (o.counts len), m < 4294967296) :
    c'.ecur.val = leadingEmpty (countList (o.counts len)) := by
  have empty_iff : ∀ (k : Fin 4) (m : Nat), (countList (o.counts len))[k.val]? = some m →
      (c'.efr.get k = 0#32 ↔ m = 0) := fun k m hm => by
    have hreg := toNat_stageCountOf (n + 1 + k.val) (hfit m (List.mem_of_getElem? hm))
    rw [h.efr, stageRegs_get hm, ← BitVec.toNat_inj, hreg]
    rfl
  refine (leadingEmpty_eq (Nat.le_of_lt_succ c'.ecur.isLt) (fun j hj => ?_) fun m hm => ?_).symm
  · have hj4 : j < 4 := by omega
    obtain ⟨m, hm⟩ := exists_count (o.counts len) ⟨j, hj4⟩
    rw [hm, (empty_iff ⟨j, hj4⟩ m hm).1 (h.passed ⟨j, hj4⟩ hj)]
  · have hlt : c'.ecur.val < 4 := (List.getElem?_eq_some_iff.1 hm).1
    have hstage : c'.stage = some ⟨_, hlt⟩ := Channel.stage_eq_some.2 rfl
    exact mt (empty_iff ⟨_, hlt⟩ m hm).2 (h.cursor _ hstage)

/-- Where every count fits, the amplitudes are the sums of the whole steps of the leading empty stages. -/
theorem Channel.NoteBegun.amplitudes {o : BeatOperands} {len n : Nat} {c c' : Channel}
    (h : c.NoteBegun o len n c') (hfit : ∀ m ∈ countList (o.counts len), m < 4294967296) :
    c'.ampL.toInt = ((wholeSteps o.peak o.sus c.panL).take c'.ecur.val).sum ∧
      c'.ampR.toInt = ((wholeSteps o.peak o.sus c.panR).take c'.ecur.val).sum := by
  rw [h.ampL.sum, h.ampR.sum, h.edl, h.edr, h.ecur_eq_leadingEmpty hfit, take_leadingEmpty_zipWith_stageDelta rfl,
    take_leadingEmpty_zipWith_stageDelta rfl]
  exact ⟨rfl, rfl⟩

/-! ### `BEAT` (R164) -/

/-- An active instrument outside the table faults (R203). -/
theorem execBeat_instrRange {s : State} {c : Channel} {count : BitVec 12} (hc : s.chan = some c)
    (hi : s.params.ninstr ≤ c.instr.toNat) (hr : s.run = .running) :
    exec (.beat count) s = .next (s.faultedBy .instrRange c.pc) := by
  change s.onChan _ = _
  rw [State.onChan_of_chan hc, State.indexCheck_fails _ _ hi hr]

/-- `BEAT`'s reads where all its words are loaded. -/
theorem State.BeatReads.beatOperands {s : State} {i : BitVec 12} {o : BeatOperands} (h : s.BeatReads i o) :
    s.beatOperands i = some o := by
  rw [State.beatOperands, h.sampleRate, h.beatLen, h.peak, h.att, h.dec, h.sus, h.rel, h.modph0]

/-- `BEAT` of an instrument in the table whose words are loaded begins its note. -/
theorem execBeat_noteBegun {s : State} {c : Channel} {o : BeatOperands} (count : BitVec 12) (hc : s.chan = some c)
    (hi : c.instr.toNat < s.params.ninstr) (ho : s.BeatReads c.instr o) :
    ∃ c', c.NoteBegun o (o.noteFrames count) s.fresh c' ∧
      exec (.beat count) s = .next { s.withChannel c' with
        phase := afterExecute s.phase, fresh := s.fresh + beatFresh (o.noteFrames count) } := by
  refine ⟨_, c.startNote_noteBegun o (o.noteFrames count) s.fresh, ?_⟩
  change s.onChan _ = _
  rw [State.onChan_of_chan hc, if_pos (State.instrValid_iff.2 hi), ho.beatOperands]
  rfl

/-- Settles O13: every count of a note below 2^31 frames fits, so the cursor and the amplitudes are those of its leading
empty stages. -/
theorem beatEffect : Obligations.BeatEffect := by
  refine fun count s c hc => ⟨fun hi hr => execBeat_instrRange hc hi hr,
    fun hi o ho len fa fd fr hlen hlt hfa hfd hfr => ?_⟩
  have hframes : o.noteFrames count = len := hlen.symm
  have hcounts := BeatOperands.countList_counts hfa hfd hfr
  have hfit : ∀ m ∈ countList (o.counts len), m < 4294967296 := fun m hm => by
    have hle := o.counts_le len m hm
    omega
  obtain ⟨c', hnote, hexec⟩ := execBeat_noteBegun count hc hi ho
  rw [hframes] at hnote hexec
  have hnone : s.fresh + beatFresh len = s.fresh := by rw [beatFresh, if_pos hlt, Nat.add_zero]
  rw [hnone] at hexec
  obtain ⟨hL, hR⟩ := hnote.amplitudes hfit
  refine ⟨c', _, hexec, State.executeEnded_of_phase rfl, rfl, ?_, ?_, ?_, ?_, ?_, hL, hR,
    hnote.cph, hnote.mph, hnote.kept⟩
  · rw [hnote.nfl, toInt_nflOf _ hlt]
  · rw [hnote.efr, map_toNat_stageRegs _ hfit, hcounts]
  · rw [hnote.edl, hcounts]
    rfl
  · rw [hnote.edr, hcounts]
    rfl
  · rw [hnote.ecur_eq_leadingEmpty hfit, hcounts]

/-- Settles O14: the same note, its `NFL` and the counts that do not fit taken from the free values. -/
theorem longBeatCompletes : Obligations.LongBeatCompletes := by
  intro count s c o hc hi ho len fa fd fr hlen hge hfa hfd hfr
  have hframes : o.noteFrames count = len := hlen.symm
  have hlong : ¬ len < 2147483648 := Nat.not_lt.2 hge
  have hcounts := BeatOperands.countList_counts hfa hfd hfr
  obtain ⟨c', hnote, hexec⟩ := execBeat_noteBegun count hc hi ho
  rw [hframes] at hnote hexec
  rw [beatFresh, if_neg hlong] at hexec
  refine ⟨c', _, hexec, State.executeEnded_of_phase rfl, rfl, ?_, fun k m hm => ?_, ?_, ?_, hnote.cursor,
    hnote.passed, hnote.ampL.sum, hnote.ampR.sum, hnote.cph, hnote.mph, hnote.kept⟩
  · rw [hnote.nfl, nflOf, if_neg hlong]
  · rw [← hcounts] at hm
    rw [hnote.efr, stageRegs_get hm, stageCountOf]
  · rw [hnote.edl, hcounts]
    rfl
  · rw [hnote.edr, hcounts]
    rfl

end Sys2Proof.Machine
end

section
/-! The engine's way through the channels of a frame (44_frame_engine.md R181 to R183, R188): the head of a channel, and
the move to the next one or to the delivery. -/

namespace Sys2Proof.Machine

/-! ### The head of `ChannelFrame` (R181, R188) -/

/-- Where `ChannelFrame` goes once a frame of a note is counted: to `Execute` after the note's last one. -/
theorem Channel.afterFrame_countFrame {c : Channel} (hg : 1 ≤ c.nfl.toInt) :
    afterFrame c.countFrame = if c.nfl.toInt = 1 then .execute true else .chanDone := by
  rw [afterFrame, Channel.countFrame_nfl_toInt hg]
  exact if_congr (by omega) rfl rfl

/-- The step of a channel with frames left: its part of the frame, and the frame counted. -/
theorem State.AtHead.step_of_renderOrSkip {s : State} {c c1 : Channel} {o : Frame} (hx : s.AtHead c)
    (hg : 1 ≤ c.nfl.toInt) (h : s.renderOrSkip c = .ok (o, c1)) :
    step s = .next { s.withChannel c1.countFrame with out := o, phase := afterFrame c1.countFrame } := by
  rw [hx.step_eq, State.channelHead, State.onChan_of_chan hx.chan, if_pos (Channel.generating_iff.2 hg), h]
  rfl

/-- A silent channel's part of a frame is nothing at all (R188). -/
theorem State.renderOrSkip_of_silent (s : State) {c : Channel} (hs : c.cstep = 0#16) :
    s.renderOrSkip c = .ok (s.out, c) := if_pos (Channel.silent_iff.2 hs)

/-- The step of a channel with no frames left: into its execute phase. -/
theorem State.AtHead.step_of_noFrames {s : State} {c : Channel} (hx : s.AtHead c) (hg : c.nfl.toInt ≤ 0) :
    step s = .next { s with phase := .execute false } := by
  have hdone : ¬ c.generating = true := fun h => absurd (Channel.generating_iff.1 h) (by omega)
  rw [hx.step_eq, State.channelHead, State.onChan_of_chan hx.chan, if_neg hdone]

/-- Settles O35. -/
theorem silentFrameAndExecuteEntry : Obligations.SilentFrameAndExecuteEntry := by
  refine fun s c hx => ⟨fun hg hs => ?_, hx.step_of_noFrames⟩
  rw [hx.step_of_renderOrSkip hg (s.renderOrSkip_of_silent hs), Channel.afterFrame_countFrame hg]
  rfl

/-! ### From channel to channel (R182, R183) -/

/-- `EngineFrame` goes on to channel `k`, or delivers where there is none. -/
def State.toChannel (s : State) (k : Nat) : State :=
  if k < s.ch.length then { s with cur := k, phase := .head } else s.deliver

/-- The move to the next channel is to the one above. -/
theorem State.nextChannel_eq_toChannel (s : State) : s.nextChannel = s.toChannel (s.cur + 1) := rfl

/-- A frame request is the move to channel 0 with `OUT` zeroed. -/
theorem State.startFrame_eq_toChannel (s : State) :
    s.startFrame = State.toChannel { s with out := Frame.zero } 0 := rfl

/-- There is a channel `k`: the engine stands at its head. -/
theorem State.toChannel_of_lt {s : State} {k : Nat} (h : k < s.ch.length) :
    s.toChannel k = { s with cur := k, phase := .head } := if_pos h

/-- There is none: the frame is delivered (R183). -/
theorem State.toChannel_of_le {s : State} {k : Nat} (h : s.ch.length ≤ k) : s.toChannel k = s.deliver :=
  if_neg (Nat.not_lt.2 h)

/-- A frame request begins at channel 0. -/
theorem State.startFrame_of_channels {s : State} (h : s.ch ≠ []) :
    s.startFrame = { s with out := Frame.zero, cur := 0, phase := .head } := by
  rw [State.startFrame_eq_toChannel]
  exact State.toChannel_of_lt (List.length_pos_iff.2 h)

/-- Without channels the silent frame is delivered at once. -/
theorem State.startFrame_of_noChannels {s : State} (h : s.ch = []) :
    s.startFrame = State.deliver { s with out := Frame.zero } := by
  rw [State.startFrame_eq_toChannel]
  exact State.toChannel_of_le (by simp [h])

/-- The step of a channel that is done. -/
theorem step_of_chanDone {s : State} (hl : s.LinesClear) (hr : s.run = .running) (hp : s.phase = .chanDone) :
    step s = .next s.nextChannel := by
  have hb : s.busy = true := (State.busy_iff s).2 ⟨hr, by simp [hp]⟩
  rw [step_of_clear hl, if_pos hb, hp]

/-- Settles O36. -/
theorem channelsInAscendingOrder : Obligations.ChannelsInAscendingOrder := by
  intro s hl hr hp
  rw [step_of_chanDone hl hr hp, State.nextChannel_eq_toChannel]
  exact ⟨fun hlt => by rw [State.toChannel_of_lt hlt], fun hle => by rw [State.toChannel_of_le hle]; rfl⟩

end Sys2Proof.Machine
end

section
/-! The host's side (44_frame_engine.md R185, R186): its moves between frames, STATUS at any moment, and its buffer. -/

namespace Sys2Proof.Machine

/-! ### The host's moves (R186) -/

/-- The host's turn is its oldest move. -/
theorem State.hostTurn_of_port {s : State} {m : HostMove} {rest : List HostMove} (h : s.port = m :: rest) :
    s.hostTurn = State.hostMove { s with port := rest } m := by
  rw [State.hostTurn, h]

/-- The step of a host's move between frames. -/
theorem step_hostMove {s : State} {m : HostMove} {rest : List HostMove} (hl : s.LinesClear) (hb : s.busy = false)
    (h : s.port = m :: rest) : step s = .next (State.hostMove { s with port := rest } m) := by
  rw [step_of_not_busy hl hb, State.hostTurn_of_port h]

/-- The step of a `PULL` while RUNNING takes the request. -/
theorem step_pull {s : State} {rest : List HostMove} (hl : s.LinesClear) (hb : s.busy = false)
    (h : s.port = .pull :: rest) (hr : s.run = .running) :
    step s = .next (State.startFrame { s with port := rest }) := by
  rw [step_hostMove hl hb h, State.hostMove, if_pos hr]

/-- Settles O37: each move by the step that takes it. -/
theorem hostMovesObeyRunState : Obligations.HostMovesObeyRunState := by
  intro s rest hl hb
  refine ⟨fun h => ?_, fun h hr hch => ?_, fun h hr hch => ?_, fun h hr => ?_, fun h => ?_, fun item h hr => ?_,
    fun h => ?_⟩
  · rw [step_hostMove hl hb h]
    rfl
  · rw [step_pull hl hb h hr, State.startFrame_of_channels (s := { s with port := rest }) hch]
    rfl
  · rw [step_pull hl hb h hr, State.startFrame_of_noChannels (s := { s with port := rest }) hch]
    rfl
  · rw [step_hostMove hl hb h, State.hostMove, if_neg hr]
  · rw [step_hostMove hl hb h]
    rfl
  · rw [step_hostMove hl hb h, State.hostMove, if_neg hr]
  · rw [step_of_not_busy hl hb, State.hostTurn, h]

/-! ### STATUS, in a hang too (R186, R209) -/

/-- A `JUMP` to itself leaves the state as it is (R209). -/
theorem State.Executing.step_jumpToItself {s : State} {c : Channel} {target : BitVec 12} (hx : s.Executing c)
    (hself : c.pc = BitVec.ofNat 16 target.toNat) (hpc : c.pc.toNat < s.codeLen s.cur)
    (hw : s.codeWord s.cur c.pc = some (encode (.jump target))) : step s = .next s := by
  rw [hx.step_of_codeWord hpc hw (decodeWord_encode _), exec_jump target hx.chan, ← hself,
    ← State.setChan_eq_withChannel, State.setChan_self hx.chan]

/-- A state that a step leaves as it is stays under any number of steps. -/
theorem core_run_of_fixed {s : State} (h : step s = .next s) (n : Nat) : core.run n s = .next s := by
  induction n with
  | zero => rfl
  | succ n ih => rw [core_run_succ n h, ih]

/-- Settles O53: the line is answered at once, and the answer leaves the hang as it is. -/
theorem statusAnsweredAlways : Obligations.StatusAnsweredAlways := by
  refine ⟨fun s => step_of_statusLine, fun s c target n m hx hself hpc hw => ⟨s, ?_, ?_⟩⟩
  · exact core_run_of_fixed (hx.step_jumpToItself hself hpc hw) n
  · have hanswer : step { s with statusLine := true }
        = .next { s with sent := s.sent ++ [.status .running s.fcause s.fchan s.fpc] } := by
      rw [step_of_statusLine (s := { s with statusLine := true }) hx.lines.reset rfl]
      simp [State.answerStatusLine, State.answerStatus, hx.running, hx.lines.status]
    have hx' : State.Executing { s with sent := s.sent ++ [.status .running s.fcause s.fchan s.fpc] } c :=
      ⟨⟨hx.lines.reset, hx.lines.status⟩, hx.running, hx.phase, hx.chan⟩
    rw [Nat.add_comm, core_run_succ m hanswer, core_run_of_fixed (hx'.step_jumpToItself hself hpc hw)]

/-! ### The host's buffer (R185) -/

/-- A buffer with frames enough is filled to its last slot. -/
theorem length_fillBuffer {n : Nat} {fs : List Frame} (h : n / 2 ≤ fs.length) : (fillBuffer n fs).length = n := by
  induction n using Nat.twoStepInduction generalizing fs with
  | zero => rfl
  | one => rfl
  | more n ih _ =>
    cases fs with
    | nil => rw [List.length_nil] at h; omega
    | cons f rest =>
      rw [List.length_cons] at h
      rw [fillBuffer, List.length_cons, List.length_cons, ih (by omega)]

/-- Frame `i` lies at slots `2 i` and `2 i + 1`. -/
theorem getElem?_fillBuffer {i n : Nat} {fs : List Frame} {f : Frame} (hi : i < n / 2) (hf : fs[i]? = some f) :
    (fillBuffer n fs)[2 * i]? = some f.l ∧ (fillBuffer n fs)[2 * i + 1]? = some f.r := by
  obtain ⟨n, rfl⟩ : ∃ m, n = m + 2 := ⟨n - 2, by omega⟩
  induction i generalizing n fs with
  | zero =>
    cases fs with
    | nil => cases hf
    | cons g rest =>
      cases hf
      exact ⟨rfl, rfl⟩
  | succ i ih =>
    obtain ⟨n, rfl⟩ : ∃ m, n = m + 2 := ⟨n - 2, by omega⟩
    cases fs with
    | nil => cases hf
    | cons g rest => exact ih hf n (by omega)

/-- An odd last slot is 0. -/
theorem getElem?_fillBuffer_last {k : Nat} {fs : List Frame} (h : k ≤ fs.length) :
    (fillBuffer (2 * k + 1) fs)[2 * k]? = some 0#8 := by
  induction k generalizing fs with
  | zero => rfl
  | succ k ih =>
    cases fs with
    | nil => cases h
    | cons f rest => exact ih (Nat.le_of_succ_le_succ h)

/-- Settles O39. -/
theorem bufferHoldsInterleavedFrames : Obligations.BufferHoldsInterleavedFrames := by
  intro n fs h
  refine ⟨List.length_replicate, length_fillBuffer h, fun i f => getElem?_fillBuffer, fun hodd => ?_⟩
  obtain ⟨k, rfl⟩ : ∃ k, n = 2 * k + 1 := ⟨n / 2, by omega⟩
  exact getElem?_fillBuffer_last (le_trans (by rw [pullsFor]; omega) h)

end Sys2Proof.Machine
end

section
/-! The delivered frame as a sum (44_frame_engine.md R181, R182; 42_envelope_wavegen.md R146, R147;
70_reset_and_hazards.md R236): along any frame `OUT` is the exact sum of the contributions so far, modulo 2^8. -/

namespace Sys2Proof.Machine

/-! ### Sums on the two lanes (R147) -/

/-- A frame with a number added on each lane. -/
def Frame.add (o : Frame) (l r : Int) : Frame := ⟨outAdd o.l l, outAdd o.r r⟩

/-- The mixing adder adds nothing where it adds 0. -/
@[simp] theorem outAdd_zero (lane : Byte) : outAdd lane 0 = lane := by
  rw [outAdd, wrapS8, Int.add_zero, BitVec.ofInt_toInt]

/-- Two additions are one of the sum. -/
theorem outAdd_outAdd (lane : Byte) (v w : Int) : outAdd (outAdd lane v) w = outAdd lane (v + w) := by
  apply BitVec.eq_of_toInt_eq
  simp only [toInt_outAdd]
  omega

/-- So adding 0 on both lanes changes nothing. -/
@[simp] theorem Frame.add_zero (o : Frame) : o.add 0 0 = o := by
  rw [Frame.add, outAdd_zero, outAdd_zero]

/-- Contributions add up lane by lane. -/
@[simp] theorem Frame.add_add (o : Frame) (l r l' r' : Int) : (o.add l r).add l' r' = o.add (l + l') (r + r') := by
  simp only [Frame.add, outAdd_outAdd]

/-- A sum on the silent frame is its numbers modulo 2^8. -/
theorem Frame.zero_add_eq (l r : Int) : Frame.zero.add l r = ⟨BitVec.ofInt 8 l, BitVec.ofInt 8 r⟩ := by
  simp [Frame.add, Frame.zero, outAdd, wrapS8]

/-- A number in the range of a sample comes back from the byte that holds it. -/
theorem toInt_ofInt_sample {v : Int} (hlo : -128 ≤ v) (hhi : v ≤ 127) : (BitVec.ofInt 8 v).toInt = v := by
  rw [BitVec.toInt_ofInt]
  exact Int.bmod_eq_of_le (by omega) (by omega)

/-! ### One channel's part -/

/-- A channel's part of a frame adds its shares to `OUT` (R146, R188). -/
theorem State.renderOrSkip_out {s : State} {c c1 : Channel} {o : Frame} (h : s.renderOrSkip c = .ok (o, c1)) :
    o = s.out.add (c.leftShare s.params) (c.rightShare s.params) := by
  obtain ⟨hs, rfl, -⟩ | ⟨hs, k, ma, -, -, -, -, rfl, -⟩ := State.renderOrSkip_ok h
  · have hstep := Channel.silent_iff.1 hs
    rw [Channel.leftShare, Channel.rightShare, if_pos hstep, if_pos hstep, Frame.add_zero]
  · have hstep : ¬ c.cstep = 0#16 := mt Channel.silent_iff.2 (Bool.eq_false_iff.1 hs)
    rw [Channel.leftShare, Channel.rightShare, if_neg hstep, if_neg hstep]
    rfl

/-- It leaves the cursor and, until the frame is counted, the frames left. -/
theorem State.renderOrSkip_kept {s : State} {c c1 : Channel} {o : Frame} (h : s.renderOrSkip c = .ok (o, c1)) :
    c1.nfl = c.nfl ∧ c1.pc = c.pc := by
  obtain ⟨-, -, rfl⟩ | ⟨-, k, ma, -, -, -, -, -, rfl⟩ := State.renderOrSkip_ok h
  · exact ⟨rfl, rfl⟩
  · simp [Channel.rendered]

/-- A ready channel has a part in the frame. -/
theorem State.ChannelReady.exists_renderOrSkip {s : State} {c : Channel} (h : s.ChannelReady c) :
    ∃ o c1, s.renderOrSkip c = .ok (o, c1) := by
  by_cases hs : c.cstep = 0#16
  · exact ⟨_, _, s.renderOrSkip_of_silent hs⟩
  · obtain ⟨hi, hm, k, hk, he⟩ := h.2 hs
    obtain ⟨ma, hma⟩ := Option.isSome_iff_exists.1 hm
    rw [State.renderOrSkip_of_stage hs hk he hi, State.modamp, hma]
    exact ⟨_, _, rfl⟩

/-! ### Any frame: what the host has been given and `OUT` (R182, R236) -/

/-- Along a frame asked for when the host had been given `sent`: the lanes of `OUT` are the exact sums so far, modulo
2^8, and the host is given that frame when the engine, still RUNNING, is between frames again. -/
structure State.FrameInProgress (s : State) (sent : List HostEvent) (left right : Int) : Prop where
  lines : s.LinesClear
  out : s.out = Frame.zero.add left right
  inside : s.busy = true → s.sent = sent
  ended : s.busy = false → s.run = .running → s.sent = sent ++ [.frame s.out]

/-- The move to a channel, or the delivery, keeps the sums. -/
theorem State.toChannel_frameInProgress {s : State} {left right : Int} (k : Nat) (hl : s.LinesClear)
    (hr : s.run = .running) (ho : s.out = Frame.zero.add left right) :
    (s.toChannel k).FrameInProgress s.sent left right := by
  by_cases hk : k < s.ch.length
  · rw [State.toChannel_of_lt hk]
    have hb : State.busy { s with cur := k, phase := .head } = true := (State.busy_iff _).2 ⟨hr, by simp⟩
    exact ⟨⟨hl.reset, hl.status⟩, ho, fun _ => rfl, fun hn => absurd (hb.symm.trans hn) (by simp)⟩
  · rw [State.toChannel_of_le (Nat.not_lt.1 hk)]
    have hb : s.deliver.busy = false := State.busy_of_idle rfl
    exact ⟨⟨hl.reset, hl.status⟩, ho, fun hy => absurd (hb.symm.trans hy) (by simp), fun _ _ => rfl⟩

/-- A counted frame leaves the channel in its execute phase or done, not between frames. -/
theorem afterFrame_ne_idle (c : Channel) : afterFrame c ≠ .idle := by
  unfold afterFrame
  split <;> simp

/-- Nor does the end of an execute phase leave the frame. -/
theorem afterExecute_ne_idle {p : Phase} (h : p ≠ .idle) : afterExecute p ≠ .idle := by
  cases p with
  | idle => exact absurd rfl h
  | execute e => cases e <;> simp [afterExecute]
  | _ => simp [afterExecute]

/-- The head of `ChannelFrame` leaves the engine inside the frame. -/
theorem State.channelHead_phase_ne_idle {s t : State} (h : s.channelHead = .next t) : t.phase ≠ .idle := by
  obtain ⟨c, -, ⟨-, rfl⟩ | ⟨-, o, c1, -, rfl⟩⟩ := State.channelHead_next h
  · simp
  · exact afterFrame_ne_idle _

/-- A command leaves the engine inside the frame, or faults. -/
theorem exec_phase_ne_idle {i : Instr} {s t : State} (hs : s.phase ≠ .idle) (h : exec i s = .next t)
    (hr : t.run = .running) : t.phase ≠ .idle := by
  cases i with
  | note pitch =>
    obtain ⟨c, -, ⟨cs, ms, rfl⟩ | ⟨cause, rfl⟩⟩ := execNote_next h
    · exact hs
    · exact absurd hr (s.raise_run_ne cause c.pc)
  | seti index =>
    obtain ⟨c, -, ⟨a, b, -, rfl⟩ | ⟨cause, rfl⟩⟩ := execSeti_next h
    · exact hs
    · exact absurd hr (s.raise_run_ne cause c.pc)
  | beat count =>
    obtain ⟨c, -, ⟨o, -, -, rfl⟩ | ⟨cause, rfl⟩⟩ := execBeat_next h
    · exact afterExecute_ne_idle hs
    · exact absurd hr (s.raise_run_ne cause c.pc)
  | jump target =>
    obtain ⟨c, -, rfl⟩ := execJump_next h
    exact hs
  | rept count =>
    obtain ⟨c, -, rfl⟩ := execRept_next h
    exact hs
  | pan offset =>
    obtain ⟨c, -, rfl⟩ := execPan_next h
    exact hs

/-- So does a step of an execute phase. -/
theorem State.executeOne_phase_ne_idle {s t : State} (hs : s.phase ≠ .idle) (h : s.executeOne = .next t)
    (hr : t.run = .running) : t.phase ≠ .idle := by
  obtain ⟨c, -, ⟨i, -, h⟩ | ⟨cause, -, rfl⟩⟩ := State.executeOne_next h
  · exact exec_phase_ne_idle hs h hr
  · exact absurd hr (s.raise_run_ne cause c.pc)

/-- The head of `ChannelFrame` adds to `OUT` what its step adds to the exact sums. -/
theorem State.channelHead_out_add {s t : State} (hp : s.phase = .head) (h : s.channelHead = .next t) :
    t.out = s.out.add (s.shareNow Channel.leftShare) (s.shareNow Channel.rightShare) := by
  obtain ⟨c, hc, ⟨hg, rfl⟩ | ⟨hg, o, c1, hr, rfl⟩⟩ := State.channelHead_next h
  · simp [State.shareNow, hp, hc, hg]
  · simpa [State.shareNow, hp, hc, hg] using State.renderOrSkip_out hr

/-- Away from the head of `ChannelFrame` a step adds nothing. -/
theorem State.shareNow_of_not_head {s : State} (hp : s.phase ≠ .head) (share : Params → Channel → Int) :
    s.shareNow share = 0 := by
  unfold State.shareNow
  split
  · exact absurd ‹_› hp
  · rfl

/-- A step that hands the host nothing and leaves a RUNNING engine inside the frame keeps the sums, with what it adds. -/
theorem State.FrameInProgress.of_inside {s t : State} {sent : List HostEvent} {left right l r : Int}
    (h : s.FrameInProgress sent left right) (hb : s.busy = true) (hsame : s.OutsideSame { t with out := s.out })
    (hp : t.run = .running → t.phase ≠ .idle) (ho : t.out = s.out.add l r) :
    t.FrameInProgress sent (left + l) (right + r) where
  lines := ⟨hsame.resetLine.trans h.lines.reset, hsame.statusLine.trans h.lines.status⟩
  out := by rw [ho, h.out, Frame.add_add]
  inside _ := hsame.sent.trans (h.inside hb)
  ended hn hr := absurd ((State.busy_iff t).2 ⟨hr, hp hr⟩) (by simp [hn])

/-- Every step inside a frame keeps the sums. -/
theorem State.FrameInProgress.step_next {s t : State} {sent : List HostEvent} {left right : Int}
    (h : s.FrameInProgress sent left right) (hb : s.busy = true) (hstep : step s = .next t) :
    t.FrameInProgress sent (left + s.shareNow Channel.leftShare) (right + s.shareNow Channel.rightShare) := by
  obtain ⟨hrun, hidle⟩ := (State.busy_iff s).1 hb
  rw [step_of_clear h.lines, if_pos hb] at hstep
  cases hp : s.phase with
  | idle => exact absurd hp hidle
  | head =>
    rw [hp] at hstep
    exact h.of_inside hb (State.channelHead_outsideSame hstep) (fun _ => State.channelHead_phase_ne_idle hstep)
      (State.channelHead_out_add hp hstep)
  | execute e =>
    rw [hp] at hstep
    have hsame := State.executeOne_outsideSame hstep
    have hnone := State.shareNow_of_not_head (s := s) (by simp [hp])
    rw [hnone, hnone]
    exact h.of_inside hb { hsame with out := rfl } (State.executeOne_phase_ne_idle hidle hstep)
      (by rw [Frame.add_zero, hsame.out])
  | chanDone =>
    rw [hp] at hstep
    cases hstep
    have hnone := State.shareNow_of_not_head (s := s) (by simp [hp])
    rw [hnone, hnone, Int.add_zero, Int.add_zero, State.nextChannel_eq_toChannel, ← h.inside hb]
    exact State.toChannel_frameInProgress _ h.lines hrun h.out

/-- A frame run to its end ends between frames, or out of RUNNING, with the exact sums. -/
theorem State.finishFrame_sums {n : Nat} {s : State} {sent : List HostEvent} {left right : Int} {e : FrameEnd}
    (h : s.FrameInProgress sent left right) (hf : s.finishFrame n left right = some e) :
    e.state.FrameInProgress sent e.left e.right ∧ e.state.busy = false := by
  induction n generalizing s left right with
  | zero =>
    unfold State.finishFrame at hf
    split at hf
    · cases hf
    · rename_i hb
      cases hf
      exact ⟨h, Bool.eq_false_iff.2 hb⟩
  | succ n ih =>
    unfold State.finishFrame at hf
    split at hf
    · rename_i hb
      split at hf
      · exact ih (h.step_next hb ‹_›) hf
      · cases hf
    · rename_i hb
      cases hf
      exact ⟨h, Bool.eq_false_iff.2 hb⟩

/-- Settles O55: the sums are kept from the request to the delivery. -/
theorem anyFrameDeliversItsExactSum : Obligations.AnyFrameDeliversItsExactSum := by
  intro s n e hl hr hf hrun
  have hstart : s.startFrame.FrameInProgress s.sent 0 0 := by
    rw [State.startFrame_eq_toChannel]
    exact State.toChannel_frameInProgress (s := { s with out := Frame.zero }) 0 ⟨hl.reset, hl.status⟩ hr
      (Frame.add_zero _).symm
  obtain ⟨hend, hb⟩ := State.finishFrame_sums hstart hf
  refine ⟨e.state.out, hend.ended hb hrun, by rw [hend.out, Frame.zero_add_eq], fun hfits => ?_⟩
  obtain ⟨hl0, hl1, hr0, hr1⟩ := hfits
  rw [hend.out, Frame.zero_add_eq]
  exact ⟨toInt_ofInt_sample hl0 hl1, toInt_ofInt_sample hr0 hr1⟩

end Sys2Proof.Machine
end

section
/-! A frame in which no channel executes a command (44_frame_engine.md R181, R182): two steps a channel, and every note
has one frame less. -/

namespace Sys2Proof.Machine

/-- The channel has one frame less and its cursor where it was. -/
structure Channel.OneFrameLess (c c' : Channel) : Prop where
  nfl : c'.nfl.toInt = c.nfl.toInt - 1
  pc : c'.pc = c.pc

/-- The step of a ready channel: its shares added to `OUT`, its frame counted, and it is done. -/
theorem State.AtHead.step_of_ready {s : State} {c : Channel} (hx : s.AtHead c) (h : s.ChannelReady c) :
    ∃ c', c.OneFrameLess c' ∧
      step s = .next { s.withChannel c' with
        out := s.out.add (c.leftShare s.params) (c.rightShare s.params), phase := .chanDone } := by
  obtain ⟨o, c1, hr⟩ := h.exists_renderOrSkip
  obtain ⟨hnfl, hpc⟩ := State.renderOrSkip_kept hr
  have hg : 2 ≤ c1.nfl.toInt := hnfl ▸ h.1
  have hless : c.OneFrameLess c1.countFrame := ⟨by rw [Channel.countFrame_nfl_toInt (by omega), hnfl], hpc⟩
  refine ⟨c1.countFrame, hless, ?_⟩
  rw [hx.step_of_renderOrSkip (hnfl ▸ by omega) hr, Channel.afterFrame_countFrame (by omega), if_neg (by omega),
    State.renderOrSkip_out hr]

/-- `t` is `s` after the channels `rest`, those above `done`, have had their part and the frame is delivered. -/
structure State.DeliveredAfter (s : State) (done rest : List Channel) (t : State) : Prop where
  sent : t.sent = s.sent ++ [.frame (s.out.add (rest.map (Channel.leftShare s.params)).sum
    (rest.map (Channel.rightShare s.params)).sum)]
  run : t.run = s.run
  phase : t.phase = .idle
  port : t.port = s.port
  mem : t.mem = s.mem
  channels : ∃ rest', t.ch = done ++ rest' ∧ List.Forall₂ Channel.OneFrameLess rest rest'

/-- The first of the channels ahead, where it is ready, has its part in two steps, and the next one follows. -/
theorem State.run_toChannel_cons {s : State} {c : Channel} {done rest : List Channel} (hl : s.LinesClear)
    (hr : s.run = .running) (hch : s.ch = done ++ c :: rest) (hready : s.ChannelReady c) :
    ∃ c', c.OneFrameLess c' ∧ ∀ n, core.run (n + 2) (s.toChannel done.length)
      = core.run n (State.toChannel { s with
          ch := done ++ c' :: rest, out := s.out.add (c.leftShare s.params) (c.rightShare s.params) }
          (done.length + 1)) := by
  have hx : State.AtHead { s with cur := done.length, phase := .head } c :=
    ⟨⟨hl.reset, hl.status⟩, hr, rfl, by simp [hch]⟩
  obtain ⟨c', hless, hhead⟩ := hx.step_of_ready hready
  have hset : s.ch.set done.length c' = done ++ c' :: rest := by simp [hch]
  refine ⟨c', hless, fun n => ?_⟩
  rw [State.toChannel_of_lt (by simp [hch]), core_run_succ _ hhead, ← hset]
  exact core_run_succ n (step_of_chanDone ⟨hl.reset, hl.status⟩ hr rfl)

/-- From the first of the ready channels `rest` on, two steps a channel lead to the delivery. -/
theorem State.run_toChannel_of_ready {s : State} {done rest : List Channel} (hl : s.LinesClear) (hr : s.run = .running)
    (hch : s.ch = done ++ rest) (hready : ∀ c ∈ rest, s.ChannelReady c) :
    ∃ t, core.run (2 * rest.length) (s.toChannel done.length) = .next t ∧ s.DeliveredAfter done rest t := by
  induction rest generalizing s done with
  | nil =>
    refine ⟨s.deliver, ?_, ⟨by simp, rfl, rfl, rfl, rfl, [], hch, .nil⟩⟩
    rw [State.toChannel_of_le (by simp [hch])]
    rfl
  | cons c rest ih =>
    obtain ⟨c', hless, htwo⟩ := State.run_toChannel_cons hl hr hch (hready c List.mem_cons_self)
    obtain ⟨t, hrun, ht⟩ := ih (done := done ++ [c'])
      (s := { s with
        ch := done ++ c' :: rest, out := s.out.add (c.leftShare s.params) (c.rightShare s.params) })
      ⟨hl.reset, hl.status⟩ hr (by simp) (fun d hd => hready d (List.mem_cons_of_mem _ hd))
    obtain ⟨rest', hch', hrest⟩ := ht.channels
    refine ⟨t, ?_, ⟨?_, ht.run, ht.phase, ht.port, ht.mem, c' :: rest', by simp [hch'], .cons hless hrest⟩⟩
    · rw [List.length_append] at hrun
      exact (htwo _).trans hrun
    · rw [ht.sent]
      simp

/-- Settles O38: the request, then two steps a channel. -/
theorem frameDeliversWrappedSum : Obligations.FrameDeliversWrappedSum := by
  intro s hl hr hp hport hready
  have hpull := step_pull hl (State.busy_of_idle hp) hport hr
  obtain ⟨t, hrun, ht⟩ := State.run_toChannel_of_ready (s := { s with port := [], out := Frame.zero }) (done := [])
    ⟨hl.reset, hl.status⟩ hr rfl hready
  obtain ⟨ch', hch, hless⟩ := ht.channels
  refine ⟨t, ⟨BitVec.ofInt 8 s.leftSum, BitVec.ofInt 8 s.rightSum⟩, ?_, ?_, rfl, fun hfits => ?_, ht.run.trans hr,
    ht.phase, ht.port, ht.mem, ?_, fun j c hj => ?_⟩
  · rw [Nat.add_comm, core_run_succ _ hpull]
    exact hrun
  · rw [ht.sent, Frame.zero_add_eq]
    rfl
  · obtain ⟨hl0, hl1, hr0, hr1⟩ := hfits
    exact ⟨toInt_ofInt_sample hl0 hl1, toInt_ofInt_sample hr0 hr1⟩
  · rw [hch, List.nil_append, hless.length_eq]
  · obtain ⟨hj', rfl⟩ := List.getElem?_eq_some_iff.1 hj
    have hlt : j < ch'.length := hless.length_eq ▸ hj'
    have hone := hless.get hj' hlt
    exact ⟨ch'[j], by rw [hch, List.nil_append, List.getElem?_eq_getElem hlt], hone.nfl, hone.pc⟩

end Sys2Proof.Machine
end

section
/-! Faults (60_exceptions.md R204 to R212): the fetch past the end of a store, what a step can still do once FAULTED, and
the hang that is no fault. -/

namespace Sys2Proof.Machine

/-! ### The fetch past the end (R205) -/

/-- A fetch at or past the end of the store raises `CodeRange` and reads nothing (R160, R205). -/
theorem State.fetch_of_codeLen_le {s : State} {pc : Word} (h : s.codeLen s.cur ≤ pc.toNat) :
    s.fetch pc = .raises .codeRange := if_pos h

/-- Settles O7: the fetch raises, and the step enters the fault. -/
theorem fetchPastEndFaults : Obligations.FetchPastEndFaults :=
  ⟨rfl, fun _ _ hx hlen => hx.step_of_fetch_raises (State.fetch_of_codeLen_le hlen)⟩

/-! ### FAULTED until RESET (R204, R212) -/

/-- A status answer is no frame (R186). -/
@[simp] theorem framesOf_append_status (es : List HostEvent) (run : RunState) (cause : FaultCause) (c : Nat)
    (pc0 : Word) : framesOf (es ++ [.status run cause c pc0]) = framesOf es := by
  induction es with
  | nil => rfl
  | cons e es ih =>
    cases e with
    | frame f => exact congrArg (f :: ·) ih
    | status => exact ih

/-- In FAULTED the host's moves but RESET are refused, or answered with the status (R186, R212). -/
theorem State.hostMove_of_faulted {s : State} {m : HostMove} (hr : s.run = .faulted) (hm : m ≠ .reset) :
    s.hostMove m = s ∨ s.hostMove m = s.answerStatus := by
  cases m with
  | reset => exact absurd rfl hm
  | load item => exact .inl (if_neg (by simp [hr]))
  | start => exact .inl (if_neg (by simp [hr]))
  | pull => exact .inl (if_neg (by simp [hr]))
  | status => exact .inr rfl

/-- While the host makes no move its turn changes nothing (R180). -/
theorem State.hostTurn_of_noMoves {s : State} (h : s.port = []) : s.hostTurn = s := by
  rw [State.hostTurn, h]

/-- `t` is `s` but for the host's side: its port and its STATUS line may differ, and it may have been given more answers
but no frame. -/
def State.HostSideOnly (s t : State) : Prop :=
  ∃ port line sent, t = { s with port := port, statusLine := line, sent := sent } ∧ framesOf sent = framesOf s.sent

/-- In FAULTED the host's turn, where it is no RESET, changes the host's side only. -/
theorem State.hostTurn_of_faulted {s : State} (hr : s.run = .faulted) (hp : ∀ rest, s.port ≠ .reset :: rest) :
    s.HostSideOnly s.hostTurn := by
  cases h : s.port with
  | nil => exact ⟨s.port, s.statusLine, s.sent, State.hostTurn_of_noMoves h, rfl⟩
  | cons m rest =>
    have hm : m ≠ .reset := fun e => hp rest (e ▸ h)
    rw [State.hostTurn_of_port h]
    obtain e | e := State.hostMove_of_faulted (s := { s with port := rest }) hr hm
    · exact ⟨rest, s.statusLine, s.sent, e, rfl⟩
    · exact ⟨rest, s.statusLine, _, e, framesOf_append_status ..⟩

/-- In FAULTED a step without RESET changes the host's side only: no channel runs. -/
theorem step_of_faulted {s t : State} (hr : s.run = .faulted) (hl : s.resetLine = false)
    (hp : ∀ rest, s.port ≠ .reset :: rest) (h : step s = .next t) : s.HostSideOnly t := by
  have hb : s.busy = false := by simp [State.busy, hr]
  cases hs : s.statusLine with
  | true =>
    rw [step_of_statusLine hl hs] at h
    cases h
    exact ⟨s.port, false, _, rfl, framesOf_append_status ..⟩
  | false =>
    rw [step_of_not_busy ⟨hl, hs⟩ hb] at h
    cases h
    exact State.hostTurn_of_faulted hr hp

/-- Settles O40: the step changes the host's side only. -/
theorem faultedUntilReset : Obligations.FaultedUntilReset := by
  intro s t hr hl hp h
  obtain ⟨port, line, sent, rfl, hsent⟩ := step_of_faulted hr hl hp h
  exact ⟨hr, rfl, rfl, rfl, rfl, rfl, rfl, hsent⟩

/-! ### The hang (R209) -/

/-- Settles O41: the state is fixed under the step, so under any number of steps. -/
theorem jumpToItselfHangs : Obligations.JumpToItselfHangs :=
  fun _ _ _ n hx hself hpc hw => core_run_of_fixed (hx.step_jumpToItself hself hpc hw) n

end Sys2Proof.Machine
end

section
/-! RESET (70_reset_and_hazards.md R230, R231): by its line, and as the host's move between frames. -/

namespace Sys2Proof.Machine

/-- The RESET line is answered at once, whatever the engine is doing and before STATUS (R186, R230; assumption 3). -/
theorem step_of_resetLine {s : State} (h : s.resetLine = true) : step s = .next s.answerResetLine := if_pos h

/-- Between frames a RESET that is the host's next move is taken, in any run state (R186, R231). -/
theorem step_hostReset {s : State} {rest : List HostMove} (hl : s.LinesClear) (hb : s.busy = false)
    (hp : s.port = .reset :: rest) : step s = .next (State.hostReset { s with port := rest }) :=
  step_hostMove hl hb hp

/-- Settles O10: the step answers the line or takes the move, and each resets the registers alone. -/
theorem resetKeepsTuneStore : Obligations.ResetKeepsTuneStore := by
  rintro s (hline | ⟨hl, hb, rest, hp⟩)
  · exact ⟨_, step_of_resetLine hline, s.answerResetLine_ch, s.answerResetLine_out, s.answerResetLine_run,
      s.answerResetLine_fcause, s.answerResetLine_fchan, s.answerResetLine_fpc, s.answerResetLine_phase,
      s.answerResetLine_mem, s.answerResetLine_params⟩
  · exact ⟨_, step_hostReset hl hb hp, State.hostReset_ch _, State.hostReset_out _, State.hostReset_run _,
      State.hostReset_fcause _, State.hostReset_fchan _, State.hostReset_fpc _, State.hostReset_phase _,
      State.hostReset_mem _, State.hostReset_params _⟩

end Sys2Proof.Machine
end
